-- ==== Sys2Proof/Word.lean ====
section
/-! DEFINITION. The words of the core: a byte, a frame body, and how bits are counted in them
(00_scope.md R14, R15; 30_encoding.md R82, R83). -/

namespace Sys2Proof

/-- A byte as an 8-bit integer `B[7:0]`; the first bit received is bit 7 (00_scope.md R15). -/
abbrev Byte := BitVec 8

/-- The 27 bits after the start bit, `F[26]` the first of them (30_encoding.md R83). -/
abbrev FrameBody := BitVec 27

/-- The two values of a classified bit: `true` is `1`, a `One`; `false` is `0`, a `Zero`
(30_encoding.md R81). -/
abbrev Bit := Bool

/-- A one-bit word. -/
abbrev bitWord (b : Bit) : BitVec 1 := BitVec.ofBool b

/-- The bit of a source `Byte8` at index `i`: `Byte8[i] = B[7 - i]` (00_scope.md R15). -/
def byte8 (b : Byte) (i : Nat) : Bit := b.getLsbD (7 - i)

end Sys2Proof
end

