-- ==== Sys2Proof/Config.lean ====
section
/-! DEFINITION. The implementation parameters of 00_scope.md section 4 as one record. Every one is
constant for the whole run (00_scope.md R11). -/

namespace Sys2Proof

/-- `OUT_MAP`: the physical line of each function number 0 to 3, "exactly 4 entries"
(00_scope.md R10). -/
structure OutMap where
  line0 : BitVec 2
  line1 : BitVec 2
  line2 : BitVec 2
  line3 : BitVec 2
deriving DecidableEq, Repr

/-- `OUT_MAP[fn]` (00_scope.md R10). -/
def OutMap.line (m : OutMap) (fn : BitVec 2) : BitVec 2 :=
  if fn = 0#2 then m.line0 else if fn = 1#2 then m.line1 else if fn = 2#2 then m.line2 else m.line3

/-- `OUT_MAP` is a permutation of 0 to 3: four entries out of four values, no two equal
(00_scope.md R10; 45_output_mapper.md R233). -/
abbrev OutMap.IsPermutation (m : OutMap) : Prop :=
  m.line0 ≠ m.line1 ∧ m.line0 ≠ m.line2 ∧ m.line0 ≠ m.line3 ∧
    m.line1 ≠ m.line2 ∧ m.line1 ≠ m.line3 ∧ m.line2 ≠ m.line3

/-- The identity map, the default of 00_scope.md section 4. -/
def OutMap.identity : OutMap := ⟨0#2, 1#2, 2#2, 3#2⟩

/-- The parameters of the core (00_scope.md section 4). -/
structure Config where
  /-- `DUR_W`, the width of a raw duration. -/
  durW : Nat
  /-- `T_ONE`, the one-threshold in ticks. -/
  tOne : Nat
  /-- `T_ZERO`, the zero-threshold in ticks. -/
  tZero : Nat
  /-- `RETRY_CAP`, the consecutive `Invalid` classifications that make a bit fetch give up. -/
  retryCap : Nat
  /-- `BASE_ADDR`, the configured accessory address. -/
  baseAddr : Nat
  /-- `OUT_MAP`, function number to physical line. -/
  outMap : OutMap
  /-- `CNT_W`, the width of each failure counter. -/
  cntW : Nat
  /-- `OUT_RESET`, the reset value of the output levels. -/
  outReset : BitVec 4
deriving DecidableEq, Repr

/-- `PRE_MIN`, fixed by the source (00_scope.md R7; 90_conflicts.md C4). -/
def preMin : Nat := 10

/-- `PRE_MAX`, fixed by the source (00_scope.md R7). -/
def preMax : Nat := 14

/-- A configuration is legal only when all of these hold (00_scope.md R13). -/
abbrev Config.Legal (c : Config) : Prop :=
  1 ≤ c.durW ∧ (1 ≤ c.tOne ∧ c.tOne < c.tZero ∧ c.tZero ≤ 2 ^ c.durW - 1) ∧ 1 ≤ c.retryCap ∧
    (1 ≤ c.baseAddr ∧ c.baseAddr ≤ 63) ∧ c.outMap.IsPermutation ∧ 1 ≤ c.cntW

/-- The greatest value of a failure counter, `2^CNT_W - 1` (10_state.md R45). -/
def Config.countMax (c : Config) : Nat := 2 ^ c.cntW - 1

/-- The least `w' ≥ w` with `n ≤ 2^w'`, looked for in `fuel` places. -/
def leastWidth (n : Nat) : Nat → Nat → Nat
  | 0, w => w
  | fuel + 1, w => if n ≤ 2 ^ w then w else leastWidth n fuel (w + 1)

/-- `RETRY_W`: the least `w ≥ 1` with `2^w ≥ RETRY_CAP` (00_scope.md section 4; 10_state.md R41). -/
def Config.retryWidth (c : Config) : Nat := leastWidth c.retryCap c.retryCap 1

/-- `CFG0`, the default configuration of the spec's examples (95_test_vectors.md, Conventions).
DESIGN CHOICE that `State.reset` carries it, unsafe to rest a claim on (assumption log 2). -/
def Config.cfg0 : Config where
  durW := 16
  tOne := 55
  tZero := 100
  retryCap := 1000
  baseAddr := 2
  outMap := OutMap.identity
  cntW := 32
  outReset := 0b0000#4

end Sys2Proof
end

