-- ==== Sys2Proof/Syntax.lean ====
section
/-! DEFINITION. The 18 rows of spec/opcode_table.json, one constructor each, and the symbols they are
read from (30_encoding.md R80 to R91). -/

namespace Sys2Proof

/-- What a block of the core reads off the stream: one constructor per row of spec/opcode_table.json,
its operands the row's encoding bits that are not fixed. -/
inductive Instr where
  /-- PULSE.ZERO, a duration at or above `T_ZERO` (40_bit_classifier.md R101). -/
  | pulseZero (d : Nat)
  /-- PULSE.ONE, a duration in `[T_ONE, T_ZERO)` (40_bit_classifier.md R102). -/
  | pulseOne (d : Nat)
  /-- PULSE.INVALID, a duration below `T_ONE` (40_bit_classifier.md R103). -/
  | pulseInvalid (d : Nat)
  /-- SYNC.ONE, a `1` in `SYNC` (41_frame_synchronizer.md R121). -/
  | syncOne
  /-- SYNC.START, a `0` in `SYNC` after 10 to 14 ones (41_frame_synchronizer.md R122). -/
  | syncStart
  /-- SYNC.IDLE, any other `0` in `SYNC` (41_frame_synchronizer.md R123). -/
  | syncIdle
  /-- DISCARD.NOTACC.0, the address byte `0xxxxxxx` (45_output_mapper.md R220). -/
  | discardNotacc0 (x : BitVec 7)
  /-- DISCARD.NOTACC.11, the address byte `11xxxxxx` (45_output_mapper.md R220). -/
  | discardNotacc11 (x : BitVec 6)
  /-- DISCARD.OTHERADDR, the address byte `10aaaaaa`, `a ≠ BASE_ADDR` (45_output_mapper.md R221). -/
  | discardOtheraddr (a : BitVec 6)
  /-- SET.O0.OFF, the frame body `10aaaaaa s xxxxx000 s kkkkkkkk t` (45_output_mapper.md R225). -/
  | setO0Off (a : BitVec 6) (s1 : Bit) (x : BitVec 5) (s2 : Bit) (k : Byte) (t : Bit)
  /-- SET.O0.ON, `cmd[2:0] = 001` (45_output_mapper.md R226). -/
  | setO0On (a : BitVec 6) (s1 : Bit) (x : BitVec 5) (s2 : Bit) (k : Byte) (t : Bit)
  /-- SET.O1.OFF, `cmd[2:0] = 010` (45_output_mapper.md R227). -/
  | setO1Off (a : BitVec 6) (s1 : Bit) (x : BitVec 5) (s2 : Bit) (k : Byte) (t : Bit)
  /-- SET.O1.ON, `cmd[2:0] = 011` (45_output_mapper.md R228). -/
  | setO1On (a : BitVec 6) (s1 : Bit) (x : BitVec 5) (s2 : Bit) (k : Byte) (t : Bit)
  /-- SET.O2.OFF, `cmd[2:0] = 100` (45_output_mapper.md R229). -/
  | setO2Off (a : BitVec 6) (s1 : Bit) (x : BitVec 5) (s2 : Bit) (k : Byte) (t : Bit)
  /-- SET.O2.ON, `cmd[2:0] = 101` (45_output_mapper.md R230). -/
  | setO2On (a : BitVec 6) (s1 : Bit) (x : BitVec 5) (s2 : Bit) (k : Byte) (t : Bit)
  /-- SET.O3.OFF, `cmd[2:0] = 110` (45_output_mapper.md R231). -/
  | setO3Off (a : BitVec 6) (s1 : Bit) (x : BitVec 5) (s2 : Bit) (k : Byte) (t : Bit)
  /-- SET.O3.ON, `cmd[2:0] = 111` (45_output_mapper.md R232). -/
  | setO3On (a : BitVec 6) (s1 : Bit) (x : BitVec 5) (s2 : Bit) (k : Byte) (t : Bit)
  /-- CHECKSUM, any frame body `a s c s k t` as the validator reads it (44_checksum_validator.md R200). -/
  | checksum (a : Byte) (s1 : Bit) (c : Byte) (s2 : Bit) (k : Byte) (t : Bit)
deriving DecidableEq, Repr

/-- The three outcomes of the classifier (00_scope.md R18; 40_bit_classifier.md R100). -/
inductive PulseClass where
  | zero
  | one
  | invalid
deriving DecidableEq, Repr

/-- What a block is handed, with the block that reads it (00_scope.md R2). The frame body has two
readers, the checksum validator and the output mapper, hence two constructors (assumption log 8). -/
inductive Symbol where
  /-- One raw duration, read by the bit classifier (30_encoding.md R80). -/
  | duration (d : Nat)
  /-- One classified bit, read by the frame synchronizer (30_encoding.md R90). -/
  | syncBit (b : Bit)
  /-- One completed address byte, read by the address filter (30_encoding.md R91). -/
  | addressByte (a : Byte)
  /-- One completed frame body, read by the output mapper (30_encoding.md R89). -/
  | mappedFrame (f : FrameBody)
  /-- One completed frame body, read by the checksum validator (44_checksum_validator.md R200). -/
  | checkedFrame (f : FrameBody)
deriving DecidableEq, Repr

/-- Why a block reads no row of the table from a symbol. -/
inductive Reject where
  /-- The number needs more than `DUR_W` bits, so it is no duration (10_state.md R31). -/
  | durationTooWide
  /-- The address byte passes the filter: no discard (45_output_mapper.md R221). -/
  | byteAccepted
  /-- The frame body does not begin with the marker `10`: no SET row matches (30_encoding.md R89). -/
  | notAccessoryFrame
  /-- The word has more bits than its format, or there is no such format. -/
  | noSuchFormat
deriving DecidableEq, Repr

end Sys2Proof
end

