-- ==== Sys2Proof/WellFormed.lean ====
section
/-! DEFINITION. When a row's operands are ones its encoding admits, from the table's match, mask and
condition columns (30_encoding.md R80, R89 to R91). -/

namespace Sys2Proof

/-- The range of preamble counts that start a frame: `10 ≤ pre ≤ 14` (41_frame_synchronizer.md R122). -/
abbrev InStartRange (pre : BitVec 4) : Prop := preMin ≤ pre.toNat ∧ pre.toNat ≤ preMax

/-- The operands, and for the sync rows the preamble count they are read under, are such that the
row's encoding stands for them. The frame rows admit every operand: their match and mask fix the
marker and `cmd[2:0]`, which no operand can break, and the conditions on `a` and `k` say when the
action happens, not which words the row has (30_encoding.md R89; assumption log 14). -/
abbrev WellFormed (cfg : Config) (pre : BitVec 4) (i : Instr) : Prop :=
  match i with
  | .pulseZero d => cfg.tZero ≤ d ∧ d < 2 ^ cfg.durW
  | .pulseOne d => cfg.tOne ≤ d ∧ d < cfg.tZero ∧ d < 2 ^ cfg.durW
  | .pulseInvalid d => d < cfg.tOne ∧ d < 2 ^ cfg.durW
  | .syncOne => True
  | .syncStart => InStartRange pre
  | .syncIdle => ¬ InStartRange pre
  | .discardNotacc0 _ => True
  | .discardNotacc11 _ => True
  | .discardOtheraddr a => a.toNat ≠ cfg.baseAddr
  | .setO0Off _ _ _ _ _ _ => True
  | .setO0On _ _ _ _ _ _ => True
  | .setO1Off _ _ _ _ _ _ => True
  | .setO1On _ _ _ _ _ _ => True
  | .setO2Off _ _ _ _ _ _ => True
  | .setO2On _ _ _ _ _ _ => True
  | .setO3Off _ _ _ _ _ _ => True
  | .setO3On _ _ _ _ _ _ => True
  | .checksum _ _ _ _ _ _ => True

end Sys2Proof
end

