-- ==== Sys2Proof/Decode.lean ====
section
/-! DEFINITION. The decoder of each block, total and rejecting by name, and after it the encoder
(30_encoding.md R80 to R91). -/

namespace Sys2Proof

/-- The comparator: both thresholds inclusive at their lower edge (40_bit_classifier.md R100;
90_conflicts.md C1). -/
def classify (cfg : Config) (d : Nat) : PulseClass :=
  if cfg.tZero ≤ d then .zero else if cfg.tOne ≤ d then .one else .invalid

/-- The bit classifier's rows (30_encoding.md R80). A number of more than `DUR_W` bits is rejected
(10_state.md R31; assumption log 5). -/
def decodeDuration (cfg : Config) (d : Nat) : Except Reject Instr :=
  if d < 2 ^ cfg.durW then
    match classify cfg d with
    | .zero => .ok (.pulseZero d)
    | .one => .ok (.pulseOne d)
    | .invalid => .ok (.pulseInvalid d)
  else .error .durationTooWide

/-- The frame synchronizer's rows, under the preamble count `pre` (30_encoding.md R90). -/
def decodeSyncBit (pre : BitVec 4) (b : Bit) : Instr :=
  if b then .syncOne else if InStartRange pre then .syncStart else .syncIdle

/-- The address filter's rows; an address byte that passes is no discard (30_encoding.md R91;
45_output_mapper.md R220, R221). -/
def decodeAddressByte (cfg : Config) (a : Byte) : Except Reject Instr :=
  if a.getLsbD 7 = false then .ok (.discardNotacc0 (a.extractLsb' 0 7))
  else if a.getLsbD 6 = true then .ok (.discardNotacc11 (a.extractLsb' 0 6))
  else if (a.extractLsb' 0 6).toNat ≠ cfg.baseAddr then .ok (.discardOtheraddr (a.extractLsb' 0 6))
  else .error .byteAccepted

/-- `addr = F[26:19]` (30_encoding.md R83). -/
def frameAddr (f : FrameBody) : Byte := f.extractLsb' 19 8

/-- `s1 = F[18]` (30_encoding.md R83). -/
def frameS1 (f : FrameBody) : Bit := f.getLsbD 18

/-- `cmd = F[17:10]` (30_encoding.md R83). -/
def frameCmd (f : FrameBody) : Byte := f.extractLsb' 10 8

/-- `s2 = F[9]` (30_encoding.md R83). -/
def frameS2 (f : FrameBody) : Bit := f.getLsbD 9

/-- `chk = F[8:1]` (30_encoding.md R83). -/
def frameChk (f : FrameBody) : Byte := f.extractLsb' 1 8

/-- `t = F[0]` (30_encoding.md R83). -/
def frameT (f : FrameBody) : Bit := f.getLsbD 0

/-- The output mapper's rows: the marker `10` in `F[26:25]`, the entry in `F[12:10]`
(30_encoding.md R89, mask `0x6001C00`). -/
def decodeMappedFrame (f : FrameBody) : Except Reject Instr :=
  let a := f.extractLsb' 19 6
  let x := f.extractLsb' 13 5
  let row := f.extractLsb' 10 3
  if f.extractLsb' 25 2 = 0b10#2 then
    if row = 0#3 then .ok (.setO0Off a (frameS1 f) x (frameS2 f) (frameChk f) (frameT f))
    else if row = 1#3 then .ok (.setO0On a (frameS1 f) x (frameS2 f) (frameChk f) (frameT f))
    else if row = 2#3 then .ok (.setO1Off a (frameS1 f) x (frameS2 f) (frameChk f) (frameT f))
    else if row = 3#3 then .ok (.setO1On a (frameS1 f) x (frameS2 f) (frameChk f) (frameT f))
    else if row = 4#3 then .ok (.setO2Off a (frameS1 f) x (frameS2 f) (frameChk f) (frameT f))
    else if row = 5#3 then .ok (.setO2On a (frameS1 f) x (frameS2 f) (frameChk f) (frameT f))
    else if row = 6#3 then .ok (.setO3Off a (frameS1 f) x (frameS2 f) (frameChk f) (frameT f))
    else .ok (.setO3On a (frameS1 f) x (frameS2 f) (frameChk f) (frameT f))
  else .error .notAccessoryFrame

/-- The checksum validator's one row: every frame body (44_checksum_validator.md R200). -/
def decodeCheckedFrame (f : FrameBody) : Instr :=
  .checksum (frameAddr f) (frameS1 f) (frameCmd f) (frameS2 f) (frameChk f) (frameT f)

/-- What the symbol's block reads from it, under the configuration and the preamble count. -/
def decode (cfg : Config) (pre : BitVec 4) : Symbol → Except Reject Instr
  | .duration d => decodeDuration cfg d
  | .syncBit b => .ok (decodeSyncBit pre b)
  | .addressByte a => decodeAddressByte cfg a
  | .mappedFrame f => decodeMappedFrame f
  | .checkedFrame f => .ok (decodeCheckedFrame f)

/-! The encoder. -/

/-- The frame body of its six fields (30_encoding.md R83). -/
def frameBody (addr : Byte) (s1 : Bit) (cmd : Byte) (s2 : Bit) (chk : Byte) (t : Bit) : FrameBody :=
  addr ++ bitWord s1 ++ cmd ++ bitWord s2 ++ chk ++ bitWord t

/-- The address byte `10aaaaaa` (30_encoding.md R84). -/
def accessoryByte (a : BitVec 6) : Byte := 0b10#2 ++ a

/-- The address byte `0xxxxxxx` (30_encoding.md R91). -/
def notAccessoryByte0 (x : BitVec 7) : Byte := 0b0#1 ++ x

/-- The address byte `11xxxxxx` (30_encoding.md R91). -/
def notAccessoryByte11 (x : BitVec 6) : Byte := 0b11#2 ++ x

/-- The command byte `xxxxxFFV` (30_encoding.md R85, R89). -/
def commandByte (x : BitVec 5) (row : BitVec 3) : Byte := x ++ row

/-- The symbol an instruction is written as, from the table's encodings (30_encoding.md R80 to R91). -/
def encode : Instr → Symbol
  | .pulseZero d => .duration d
  | .pulseOne d => .duration d
  | .pulseInvalid d => .duration d
  | .syncOne => .syncBit true
  | .syncStart => .syncBit false
  | .syncIdle => .syncBit false
  | .discardNotacc0 x => .addressByte (notAccessoryByte0 x)
  | .discardNotacc11 x => .addressByte (notAccessoryByte11 x)
  | .discardOtheraddr a => .addressByte (accessoryByte a)
  | .setO0Off a s1 x s2 k t => .mappedFrame (frameBody (accessoryByte a) s1 (commandByte x 0#3) s2 k t)
  | .setO0On a s1 x s2 k t => .mappedFrame (frameBody (accessoryByte a) s1 (commandByte x 1#3) s2 k t)
  | .setO1Off a s1 x s2 k t => .mappedFrame (frameBody (accessoryByte a) s1 (commandByte x 2#3) s2 k t)
  | .setO1On a s1 x s2 k t => .mappedFrame (frameBody (accessoryByte a) s1 (commandByte x 3#3) s2 k t)
  | .setO2Off a s1 x s2 k t => .mappedFrame (frameBody (accessoryByte a) s1 (commandByte x 4#3) s2 k t)
  | .setO2On a s1 x s2 k t => .mappedFrame (frameBody (accessoryByte a) s1 (commandByte x 5#3) s2 k t)
  | .setO3Off a s1 x s2 k t => .mappedFrame (frameBody (accessoryByte a) s1 (commandByte x 6#3) s2 k t)
  | .setO3On a s1 x s2 k t => .mappedFrame (frameBody (accessoryByte a) s1 (commandByte x 7#3) s2 k t)
  | .checksum a s1 c s2 k t => .checkedFrame (frameBody a s1 c s2 k t)

/-- The bits of a symbol as one number, bit 0 the least significant, as the table numbers them. -/
def Symbol.bits : Symbol → Nat
  | .duration d => d
  | .syncBit b => b.toNat
  | .addressByte a => a.toNat
  | .mappedFrame f => f.toNat
  | .checkedFrame f => f.toNat

/-- The width of a symbol in bits (30_encoding.md R80 to R83). -/
def Symbol.width (cfg : Config) : Symbol → Nat
  | .duration _ => cfg.durW
  | .syncBit _ => 1
  | .addressByte _ => 8
  | .mappedFrame _ => 27
  | .checkedFrame _ => 27

/-! The table's words. -/

/-- The symbol of a table word of `nbits` bits in whole bytes: 16 for a pulse; 8 for an address byte
and, for the words 0 and 1, a sync bit; 24 or 32 for a frame body, which the output mapper reads when
it has the marker `10` and the validator otherwise. DESIGN CHOICE, safe (assumption log 16). -/
def tableSymbol (nbits w : Nat) : Except Reject Symbol :=
  if nbits = 16 then .ok (.duration w)
  else if nbits ≤ 8 then
    if w ≤ 1 then .ok (.syncBit (w == 1))
    else if w < 256 then .ok (.addressByte (BitVec.ofNat 8 w))
    else .error .noSuchFormat
  else if nbits ≤ 32 then
    if w < 2 ^ 27 then
      let f := BitVec.ofNat 27 w
      if f.extractLsb' 25 2 = 0b10#2 then .ok (.mappedFrame f) else .ok (.checkedFrame f)
    else .error .noSuchFormat
  else .error .noSuchFormat

/-- The instruction read from a table word under `CFG0` and the reset value of `pre`
(assumption log 16). -/
def decodeTableWord (nbits w : Nat) : Option Instr :=
  match tableSymbol nbits w with
  | .ok sym => (decode Config.cfg0 0 sym).toOption
  | .error _ => none

end Sys2Proof
end

