-- ==== Sys2Proof/Machine/State.lean ====
section
/-! DEFINITION. The architectural state of the core as plain data, the state after reset, and the
reasons a step can stop (10_state.md section 3, R49). -/

namespace Sys2Proof.Machine

/-- The eight codes of the 3-bit register `st` (10_state.md R38). -/
inductive DecState where
  /-- `0b000`, AwaitPreamble and AwaitFrameStart. -/
  | sync
  /-- `0b001`, ReadAddress. -/
  | addr
  /-- `0b010`, CheckInterByte1. -/
  | ib1
  /-- `0b011`, ReadCommand. -/
  | cmd
  /-- `0b100`, CheckInterByte2. -/
  | ib2
  /-- `0b101`, ReadChecksum. -/
  | chk
  /-- `0b110`, CheckTerminator and Validate. -/
  | term
  /-- `0b111`, never reached from reset, decoded as `SYNC` (43_packet_decoder.md R164). -/
  | unused
deriving DecidableEq, Repr

/-- The pins the core samples at one rising edge of `clk` (10_state.md R30, R31). `dur` is any value
and is not read when `rst = 1` or `dur_valid = 0` (93_implementation_defined.md I10). -/
structure Pins where
  rst : Bool
  durValid : Bool
  dur : Nat
deriving DecidableEq, Repr

/-- The registers of 10_state.md section 3, and two fields of the model's own: the parameters `cfg`
(assumption log 1) and the pin samples of the coming edges, oldest first (assumption log 3). Values
whose width is a parameter are natural numbers (assumption log 4). -/
structure State where
  /-- The parameters, constant for the run (00_scope.md R11). -/
  cfg : Config
  /-- The pins at the coming edges, the next edge first. -/
  input : List Pins
  /-- Decoder state (R38). -/
  st : DecState
  /-- PreambleCount, saturating at 15 (R39). -/
  pre : BitVec 4
  /-- Index of the next bit within the byte being assembled (R40). -/
  idx : BitVec 3
  /-- Consecutive `Invalid` classifications in the current bit fetch (R41). -/
  retry : Nat
  /-- AddressByte (R42). -/
  addr : Byte
  /-- CommandByte (R43). -/
  cmd : Byte
  /-- ChecksumByte (R44). -/
  chk : Byte
  /-- Checksum failure counter (R45). -/
  cntChk : Nat
  /-- Command-byte framing failure counter (R45). -/
  cntCmd : Nat
  /-- Address-byte framing failure counter (R45). -/
  cntAddr : Nat
  /-- Rise-time/noise failure counter (R45). -/
  cntNoise : Nat
  /-- Held level of each physical line (R35). -/
  outLevel : BitVec 4
  /-- Action strobe (R33). -/
  actValid : Bool
  /-- Function number of the last action (R34). -/
  actIndex : BitVec 2
  /-- Physical line of the last action (R34). -/
  actLine : BitVec 2
  /-- Value of the last action (R34). -/
  actValue : Bool
deriving DecidableEq, Repr

/-- The core has no fault: no input stops it (60_exceptions.md R260; 43_packet_decoder.md R176;
assumption log 12). -/
inductive Fault where
deriving DecidableEq, Repr

/-- Why the model has no step. No instruction's meaning raises one. -/
inductive Refusal where
  /-- An instruction without a meaning: raised by no arm of `exec` as it stands. Safe. -/
  | notModelled (mnemonic : String)
  /-- Raised by the step when the parameters break 00_scope.md R13: the spec has a model refuse them,
  it has no run (93_implementation_defined.md I13; assumption log 6). Safe. -/
  | illegalConfiguration
  /-- Raised by the step for a number that `DUR_W` wires cannot carry: it is no input of the core
  (10_state.md R31; assumption log 5). Safe. -/
  | durationTooWide
deriving DecidableEq, Repr

/-- Every register at the value of 10_state.md R49, with the parameters and coming pins given. -/
def State.resetWith (cfg : Config) (input : List Pins) : State where
  cfg := cfg
  input := input
  st := .sync
  pre := 0#4
  idx := 0#3
  retry := 0
  addr := 0x00#8
  cmd := 0x00#8
  chk := 0x00#8
  cntChk := 0
  cntCmd := 0
  cntAddr := 0
  cntNoise := 0
  outLevel := cfg.outReset
  actValid := false
  actIndex := 0#2
  actLine := 0#2
  actValue := false

/-- The core right after reset (10_state.md R49), with the parameters `CFG0` (assumption log 2) and no
pin sample waiting (assumption log 3). -/
def State.reset : State := State.resetWith Config.cfg0 []

end Sys2Proof.Machine
end

