-- ==== Sys2Proof/Machine/Operands.lean ====
section
/-! DEFINITION. The fields the core assembles from its registers, the shift that fills a byte, the
saturating adds, and when the registers hold what a row's encoding spells (30_encoding.md R88;
42_byte_assembler.md R140; 00_scope.md R16). -/

namespace Sys2Proof.Machine

/-- The 3-bit code of a decoder state (10_state.md R38). -/
def DecState.code : DecState → BitVec 3
  | .sync => 0b000
  | .addr => 0b001
  | .ib1 => 0b010
  | .cmd => 0b011
  | .ib2 => 0b100
  | .chk => 0b101
  | .term => 0b110
  | .unused => 0b111

/-- `sat_add_W(c, k) = min(c + k, 2^W - 1)` (00_scope.md R16). -/
def satAdd (w c k : Nat) : Nat := min (c + k) (2 ^ w - 1)

/-- `sat_add_4(pre, 1)` (41_frame_synchronizer.md R121, R124). -/
def preUp (pre : BitVec 4) : BitVec 4 := BitVec.ofNat 4 (satAdd 4 pre.toNat 1)

/-- `R[6:0] ++ b`: the new bit enters at bit 0 (42_byte_assembler.md R140). -/
def shiftIn (r : Byte) (b : Bit) : Byte := r.extractLsb' 0 7 ++ bitWord b

/-- `marker_ok`: `addr[7:6] = 0b10` (30_encoding.md R84, R88). -/
def markerOk (a : Byte) : Bool := a.extractLsb' 6 2 == 0b10#2

/-- `AccessoryAddress = addr[5:0]` (30_encoding.md R88). -/
def accessoryAddress (a : Byte) : BitVec 6 := a.extractLsb' 0 6

/-- The address filter: marker first, then the exact compare on 6 bits (45_output_mapper.md R220,
R221). -/
def passesFilter (cfg : Config) (a : Byte) : Bool :=
  markerOk a && (accessoryAddress a).toNat == cfg.baseAddr

/-- `function_number = cmd[2:1]` (45_output_mapper.md R222). -/
def functionNumber (c : Byte) : BitVec 2 := c.extractLsb' 1 2

/-- `desired_value = cmd[0]`, 1 is on (45_output_mapper.md R222; 90_conflicts.md C12). -/
def desiredValue (c : Byte) : Bit := c.getLsbD 0

/-- `out_level` with bit `line` set to `v`, the other bits kept (10_state.md R35). -/
def setLevel (levels : BitVec 4) (line : BitVec 2) (v : Bit) : BitVec 4 :=
  if v then levels ||| (1#4 <<< line.toNat) else levels &&& ~~~(1#4 <<< line.toNat)

/-- The state is one that takes its bit through the synchronizer: `SYNC`, or the unused code, which
is decoded as `SYNC` (43_packet_decoder.md R164). -/
def inSync (s : State) : Bool := s.st == .sync || s.st == .unused

/-- The next bit, `a[0]`, completes the address byte `a`: the state is `ADDR`, seven bits have been
taken, and they are `a[7:1]` (42_byte_assembler.md R141, R142). -/
def awaitsLastBitOf (s : State) (a : Byte) : Bool :=
  s.st == .addr && s.idx == 7#3 && shiftIn s.addr (a.getLsbD 0) == a

/-- The next bit is the terminator of the frame of these three bytes: the state is `TERM` and the byte
registers hold them (43_packet_decoder.md R173). -/
def awaitsTerminatorOf (s : State) (a c k : Byte) : Bool :=
  s.st == .term && s.addr == a && s.cmd == c && s.chk == k

end Sys2Proof.Machine
end

