-- ==== Sys2Proof/Machine/Flags.lean ====
section
/-! DEFINITION. The core's one flag, the transient checksum-error flag, and the terminator check that
counts beside it (10_state.md R46; 44_checksum_validator.md R200, R201; 43_packet_decoder.md R175). -/

namespace Sys2Proof.Machine

/-- `mismatch[i] = chk[i] XOR (addr[i] XOR cmd[i])` (44_checksum_validator.md R200). -/
def mismatchAt (addr cmd chk : Byte) (i : Nat) : Bool :=
  chk.getLsbD i ^^ (addr.getLsbD i ^^ cmd.getLsbD i)

/-- `err`, the OR of the eight bit mismatches: set by any of them, not a parity
(44_checksum_validator.md R200, R201, R203; 90_conflicts.md C5). -/
def checksumError (addr cmd chk : Byte) : Bool :=
  mismatchAt addr cmd chk 0 || mismatchAt addr cmd chk 1 || mismatchAt addr cmd chk 2 ||
    mismatchAt addr cmd chk 3 || mismatchAt addr cmd chk 4 || mismatchAt addr cmd chk 5 ||
    mismatchAt addr cmd chk 6 || mismatchAt addr cmd chk 7

/-- `et`: the terminator is not `1` (43_packet_decoder.md R175). -/
def terminatorError (b : Bit) : Bool := !b

end Sys2Proof.Machine
end

