-- ==== Sys2Proof/Machine/Ops.lean ====
section
/-! DEFINITION. The operations a step is made of: the bit fetch, the abort, the counters, the
synchronizer, the byte assembler, the filter, the terminator step and the dispatch of an action, and
the step on one classified bit built from them (43_packet_decoder.md R162). -/

namespace Sys2Proof.Machine

/-! The edge and the bit fetch. -/

/-- The clock edge is used up and the action strobe falls, unless the rest of the step raises it
(10_state.md R30, R33). -/
def beginEdge (s : State) : State := { s with input := s.input.tail, actValid := false }

/-- A valid bit clears the retry count (40_bit_classifier.md R106). -/
def bitFetched (s : State) : State := { beginEdge s with retry := 0 }

/-- `count(cnt_noise)` (10_state.md R45; 40_bit_classifier.md R103). -/
def countNoise (s : State) : State := { s with cntNoise := satAdd s.cfg.cntW s.cntNoise 1 }

/-- `count(cnt_addr)` (43_packet_decoder.md R169). -/
def countAddr (s : State) : State := { s with cntAddr := satAdd s.cfg.cntW s.cntAddr 1 }

/-- `count(cnt_cmd)` (43_packet_decoder.md R171). -/
def countCmd (s : State) : State := { s with cntCmd := satAdd s.cfg.cntW s.cntCmd 1 }

/-- `count(cnt_chk, n)` (44_checksum_validator.md R202). -/
def countChk (n : Nat) (s : State) : State := { s with cntChk := satAdd s.cfg.cntW s.cntChk n }

/-- `Abort()`, the core's one non-sequential change of state: nothing is saved, nothing else is
written, and there is no return from it (43_packet_decoder.md R166; 60_exceptions.md R264, R265). -/
def abort (s : State) : State := { s with st := .sync, pre := 0#4, idx := 0#3, retry := 0 }

/-- An `Invalid` is counted, then retried, or given up at the cap (40_bit_classifier.md R104, R105). -/
def absorbInvalid (s : State) : State :=
  if s.cfg.retryCap ≤ s.retry + 1 then abort (countNoise s)
  else { countNoise s with retry := s.retry + 1 }

/-- The step on an `Invalid` duration (40_bit_classifier.md R103, R104). -/
def consumeInvalid (s : State) : State := absorbInvalid (beginEdge s)

/-! The frame synchronizer. -/

/-- `PreambleBit` (41_frame_synchronizer.md R121). `st` is written so that the unused code recovers
(43_packet_decoder.md R164; assumption log 7). -/
def preambleBit (s : State) : State := { s with st := .sync, pre := preUp s.pre }

/-- `FrameStart` (41_frame_synchronizer.md R122). -/
def frameStart (s : State) : State := { s with st := .addr, pre := 0#4, idx := 0#3 }

/-- `Idle` (41_frame_synchronizer.md R123). `st` is written as in `preambleBit`. -/
def idleZero (s : State) : State := { s with st := .sync, pre := 0#4 }

/-- `observe(bit)` (41_frame_synchronizer.md, head; 43_packet_decoder.md R167). -/
def observe (b : Bit) (s : State) : State :=
  if b then preambleBit s else if InStartRange s.pre then frameStart s else idleZero s

/-! The byte assembler and the address filter. -/

/-- The bit index after one more bit of a byte: it wraps from 7 to 0 (42_byte_assembler.md R141). -/
def nextIdx (idx : BitVec 3) : BitVec 3 := if idx = 7#3 then 0#3 else idx + 1#3

/-- A discard after the address byte: silent, back to `SYNC` (45_output_mapper.md R220, R221). -/
def discardPacket (s : State) : State := { s with st := .sync, pre := 0#4 }

/-- The filter on the completed address byte (45_output_mapper.md R220, R221). -/
def applyFilter (s : State) : State :=
  if passesFilter s.cfg s.addr then { s with st := .ib1 } else discardPacket s

/-- One bit of the address byte; the eighth runs the filter on the completed byte
(42_byte_assembler.md R142; 43_packet_decoder.md R168). -/
def addrBit (b : Bit) (s : State) : State :=
  if s.idx = 7#3 then applyFilter { s with addr := shiftIn s.addr b, idx := nextIdx s.idx }
  else { s with addr := shiftIn s.addr b, idx := nextIdx s.idx }

/-- One bit of the command byte (42_byte_assembler.md R143; 43_packet_decoder.md R170). -/
def cmdBit (b : Bit) (s : State) : State :=
  { s with
    cmd := shiftIn s.cmd b, idx := nextIdx s.idx, st := if s.idx = 7#3 then .ib2 else s.st }

/-- One bit of the checksum byte (42_byte_assembler.md R144; 43_packet_decoder.md R172). -/
def chkBit (b : Bit) (s : State) : State :=
  { s with
    chk := shiftIn s.chk b, idx := nextIdx s.idx, st := if s.idx = 7#3 then .term else s.st }

/-! The separators. -/

/-- The first inter-byte bit: a `1` is counted, decoding goes on (43_packet_decoder.md R169). -/
def separator1 (b : Bit) (s : State) : State :=
  { (if b then countAddr s else s) with st := .cmd }

/-- The second inter-byte bit: a `1` is counted, decoding goes on (43_packet_decoder.md R171). -/
def separator2 (b : Bit) (s : State) : State :=
  { (if b then countCmd s else s) with st := .chk }

/-! The terminator step. -/

/-- `out_level[ln] <- v; emit Action(fn, ln, v)` with `ln = OUT_MAP[fn]` (45_output_mapper.md R223;
10_state.md R33). -/
def dispatchAction (fn : BitVec 2) (v : Bit) (s : State) : State :=
  { s with
    outLevel := setLevel s.outLevel (s.cfg.outMap.line fn) v
    actValid := true
    actIndex := fn
    actLine := s.cfg.outMap.line fn
    actValue := v }

/-- Back to the preamble search, whatever the checksum and terminator were (43_packet_decoder.md
R174). -/
def returnToSync (s : State) : State := { s with st := .sync, pre := 0#4 }

/-- The `TERM` step for the action on function `fn` with value `v`: the flag, one combined count, the
action if the flag is clear, the return (43_packet_decoder.md R173; 44_checksum_validator.md R202,
R204). -/
def terminate (fn : BitVec 2) (v : Bit) (t : Bit) (s : State) : State :=
  let err := checksumError s.addr s.cmd s.chk
  let counted := countChk (err.toNat + (terminatorError t).toNat) s
  returnToSync (if err then counted else dispatchAction fn v counted)

/-! The step on one classified bit. -/

/-- The `case st of` of the step function (43_packet_decoder.md R162). -/
def bitStep (b : Bit) (s : State) : State :=
  match s.st with
  | .sync => observe b s
  | .addr => addrBit b s
  | .ib1 => separator1 b s
  | .cmd => cmdBit b s
  | .ib2 => separator2 b s
  | .chk => chkBit b s
  | .term => terminate (functionNumber s.cmd) (desiredValue s.cmd) b s
  | .unused => observe b s

/-- The step on a duration that is the bit `b` (43_packet_decoder.md R162). -/
def consumeBit (b : Bit) (s : State) : State := bitStep b (bitFetched s)

/-- The step on one duration, `Step(S, d)` (00_scope.md R17; 43_packet_decoder.md R162). -/
def durationStep (d : Nat) (s : State) : State :=
  match classify s.cfg d with
  | .zero => consumeBit false s
  | .one => consumeBit true s
  | .invalid => consumeInvalid s

/-! Edges without a step. -/

/-- An edge without a duration: only the strobe changes (10_state.md R30). -/
def idleEdge (s : State) : State := beginEdge s

/-- An edge with `rst = 1`: every register takes its reset value (70_reset_and_hazards.md R290,
R291). -/
def resetEdge (s : State) : State := State.resetWith s.cfg s.input.tail

end Sys2Proof.Machine
end

