-- ==== Sys2Proof/Machine/Checksum.lean ====
section
/-! DEFINITION. The checksum validator's row, at the step of the frame's terminator
(44_checksum_validator.md R200 to R206). -/

namespace Sys2Proof.Machine

/-- CHECKSUM: the flag of the frame decides the step. Set, it counts 1 in `cnt_chk` and suppresses the
action; clear, it counts nothing and the action of `cmd` happens (44_checksum_validator.md R200 to
R206; 45_output_mapper.md R223). In a state that does not hold the frame the bit `t` is taken as the
state takes any bit (assumption log 9). -/
def execChecksum (a : Byte) (_s1 : Bit) (c : Byte) (_s2 : Bit) (k : Byte) (t : Bit) (s : State) :
    Host.Outcome State Fault Refusal :=
  if awaitsTerminatorOf s a c k then
    .next (terminate (functionNumber c) (desiredValue c) t (bitFetched s))
  else .next (consumeBit t s)

end Sys2Proof.Machine
end

