-- ==== Sys2Proof/Machine/Discard.lean ====
section
/-! DEFINITION. The address bytes that end a packet attempt, at the step of their eighth bit
(45_output_mapper.md R220, R221). A row whose condition does not hold is not what the edge spells: its
bit is then taken as the state takes any bit (assumption log 9). -/

namespace Sys2Proof.Machine

/-- The discard at the eighth bit of the address byte `a`: the byte is completed, no counter changes
(45_output_mapper.md R220, R221; 42_byte_assembler.md R141). -/
def discardByte (a : Byte) (s : State) : State :=
  discardPacket { bitFetched s with addr := a, idx := 0#3 }

/-- DISCARD.NOTACC.0 (45_output_mapper.md R220). -/
def execDiscardNotacc0 (x : BitVec 7) (s : State) : Host.Outcome State Fault Refusal :=
  if awaitsLastBitOf s (notAccessoryByte0 x) then .next (discardByte (notAccessoryByte0 x) s)
  else .next (consumeBit (x.getLsbD 0) s)

/-- DISCARD.NOTACC.11 (45_output_mapper.md R220). -/
def execDiscardNotacc11 (x : BitVec 6) (s : State) : Host.Outcome State Fault Refusal :=
  if awaitsLastBitOf s (notAccessoryByte11 x) then .next (discardByte (notAccessoryByte11 x) s)
  else .next (consumeBit (x.getLsbD 0) s)

/-- DISCARD.OTHERADDR (45_output_mapper.md R221). -/
def execDiscardOtheraddr (a : BitVec 6) (s : State) : Host.Outcome State Fault Refusal :=
  if awaitsLastBitOf s (accessoryByte a) ∧ a.toNat ≠ s.cfg.baseAddr then
    .next (discardByte (accessoryByte a) s)
  else .next (consumeBit (a.getLsbD 0) s)

end Sys2Proof.Machine
end

