-- ==== Sys2Proof/Machine/Pulse.lean ====
section
/-! DEFINITION. The three classes of a pulse: the step on a duration of each class
(40_bit_classifier.md R101 to R106). -/

namespace Sys2Proof.Machine

/-- PULSE.ZERO: the bit fetch yields 0 and clears `retry`; the state takes the bit
(40_bit_classifier.md R101; 43_packet_decoder.md R162). -/
def execPulseZero (_d : Nat) (s : State) : Host.Outcome State Fault Refusal :=
  .next (consumeBit false s)

/-- PULSE.ONE: the bit fetch yields 1 and clears `retry`; the state takes the bit
(40_bit_classifier.md R102; 43_packet_decoder.md R162). -/
def execPulseOne (_d : Nat) (s : State) : Host.Outcome State Fault Refusal :=
  .next (consumeBit true s)

/-- PULSE.INVALID: counted, then retried or given up; no bit (40_bit_classifier.md R103 to R105). -/
def execPulseInvalid (_d : Nat) (s : State) : Host.Outcome State Fault Refusal :=
  .next (consumeInvalid s)

end Sys2Proof.Machine
end

