-- ==== Sys2Proof/Machine/SetOutput.lean ====
section
/-! DEFINITION. The eight entries of the command-to-action table, at the step of the frame's terminator
(45_output_mapper.md R222 to R232). Each is performed only when the checksum flag is clear; `s1` and
`s2` were taken and counted in `IB1` and `IB2` (43_packet_decoder.md R177; assumption log 10). A row
whose condition does not hold is not what the edge spells: its bit is then taken as the state takes
any bit (assumption log 9). -/

namespace Sys2Proof.Machine

/-- SET.O0.OFF: `out_level[OUT_MAP[0]] <- 0; emit Action(0, OUT_MAP[0], 0)`
(45_output_mapper.md R225). -/
def execSetO0Off (a : BitVec 6) (_s1 : Bit) (x : BitVec 5) (_s2 : Bit) (k : Byte) (t : Bit)
    (s : State) : Host.Outcome State Fault Refusal :=
  if awaitsTerminatorOf s (accessoryByte a) (commandByte x 0#3) k then
    .next (terminate 0#2 false t (bitFetched s))
  else .next (consumeBit t s)

/-- SET.O0.ON: `out_level[OUT_MAP[0]] <- 1; emit Action(0, OUT_MAP[0], 1)`
(45_output_mapper.md R226). -/
def execSetO0On (a : BitVec 6) (_s1 : Bit) (x : BitVec 5) (_s2 : Bit) (k : Byte) (t : Bit)
    (s : State) : Host.Outcome State Fault Refusal :=
  if awaitsTerminatorOf s (accessoryByte a) (commandByte x 1#3) k then
    .next (terminate 0#2 true t (bitFetched s))
  else .next (consumeBit t s)

/-- SET.O1.OFF: `out_level[OUT_MAP[1]] <- 0; emit Action(1, OUT_MAP[1], 0)`
(45_output_mapper.md R227). -/
def execSetO1Off (a : BitVec 6) (_s1 : Bit) (x : BitVec 5) (_s2 : Bit) (k : Byte) (t : Bit)
    (s : State) : Host.Outcome State Fault Refusal :=
  if awaitsTerminatorOf s (accessoryByte a) (commandByte x 2#3) k then
    .next (terminate 1#2 false t (bitFetched s))
  else .next (consumeBit t s)

/-- SET.O1.ON: `out_level[OUT_MAP[1]] <- 1; emit Action(1, OUT_MAP[1], 1)`
(45_output_mapper.md R228). -/
def execSetO1On (a : BitVec 6) (_s1 : Bit) (x : BitVec 5) (_s2 : Bit) (k : Byte) (t : Bit)
    (s : State) : Host.Outcome State Fault Refusal :=
  if awaitsTerminatorOf s (accessoryByte a) (commandByte x 3#3) k then
    .next (terminate 1#2 true t (bitFetched s))
  else .next (consumeBit t s)

/-- SET.O2.OFF: `out_level[OUT_MAP[2]] <- 0; emit Action(2, OUT_MAP[2], 0)`
(45_output_mapper.md R229). -/
def execSetO2Off (a : BitVec 6) (_s1 : Bit) (x : BitVec 5) (_s2 : Bit) (k : Byte) (t : Bit)
    (s : State) : Host.Outcome State Fault Refusal :=
  if awaitsTerminatorOf s (accessoryByte a) (commandByte x 4#3) k then
    .next (terminate 2#2 false t (bitFetched s))
  else .next (consumeBit t s)

/-- SET.O2.ON: `out_level[OUT_MAP[2]] <- 1; emit Action(2, OUT_MAP[2], 1)`
(45_output_mapper.md R230). -/
def execSetO2On (a : BitVec 6) (_s1 : Bit) (x : BitVec 5) (_s2 : Bit) (k : Byte) (t : Bit)
    (s : State) : Host.Outcome State Fault Refusal :=
  if awaitsTerminatorOf s (accessoryByte a) (commandByte x 5#3) k then
    .next (terminate 2#2 true t (bitFetched s))
  else .next (consumeBit t s)

/-- SET.O3.OFF: `out_level[OUT_MAP[3]] <- 0; emit Action(3, OUT_MAP[3], 0)`
(45_output_mapper.md R231). -/
def execSetO3Off (a : BitVec 6) (_s1 : Bit) (x : BitVec 5) (_s2 : Bit) (k : Byte) (t : Bit)
    (s : State) : Host.Outcome State Fault Refusal :=
  if awaitsTerminatorOf s (accessoryByte a) (commandByte x 6#3) k then
    .next (terminate 3#2 false t (bitFetched s))
  else .next (consumeBit t s)

/-- SET.O3.ON: `out_level[OUT_MAP[3]] <- 1; emit Action(3, OUT_MAP[3], 1)`
(45_output_mapper.md R232). -/
def execSetO3On (a : BitVec 6) (_s1 : Bit) (x : BitVec 5) (_s2 : Bit) (k : Byte) (t : Bit)
    (s : State) : Host.Outcome State Fault Refusal :=
  if awaitsTerminatorOf s (accessoryByte a) (commandByte x 7#3) k then
    .next (terminate 3#2 true t (bitFetched s))
  else .next (consumeBit t s)

end Sys2Proof.Machine
end

