-- ==== Sys2Proof/Machine/Sync.lean ====
section
/-! DEFINITION. The three symbols of the frame synchronizer (41_frame_synchronizer.md R121 to R123).
A row whose condition does not hold is not what the edge spells: its bit is then taken as the state
takes any bit (assumption log 9). -/

namespace Sys2Proof.Machine

/-- SYNC.ONE (41_frame_synchronizer.md R121). -/
def execSyncOne (s : State) : Host.Outcome State Fault Refusal :=
  if inSync s then .next (preambleBit (bitFetched s)) else .next (consumeBit true s)

/-- SYNC.START (41_frame_synchronizer.md R122). -/
def execSyncStart (s : State) : Host.Outcome State Fault Refusal :=
  if inSync s ∧ InStartRange s.pre then .next (frameStart (bitFetched s))
  else .next (consumeBit false s)

/-- SYNC.IDLE (41_frame_synchronizer.md R123). -/
def execSyncIdle (s : State) : Host.Outcome State Fault Refusal :=
  if inSync s ∧ ¬ InStartRange s.pre then .next (idleZero (bitFetched s))
  else .next (consumeBit false s)

end Sys2Proof.Machine
end

