-- ==== Sys2Proof/Machine/Dispatch.lean ====
section
/-! DEFINITION. One arm per row of spec/opcode_table.json. -/

namespace Sys2Proof.Machine

def exec (i : Instr) (s : State) : Host.Outcome State Fault Refusal :=
  match i with
  | .pulseZero d => Sys2Proof.Machine.execPulseZero d s
  | .pulseOne d => Sys2Proof.Machine.execPulseOne d s
  | .pulseInvalid d => Sys2Proof.Machine.execPulseInvalid d s
  | .syncOne => Sys2Proof.Machine.execSyncOne s
  | .syncStart => Sys2Proof.Machine.execSyncStart s
  | .syncIdle => Sys2Proof.Machine.execSyncIdle s
  | .discardNotacc0 x => Sys2Proof.Machine.execDiscardNotacc0 x s
  | .discardNotacc11 x => Sys2Proof.Machine.execDiscardNotacc11 x s
  | .discardOtheraddr a => Sys2Proof.Machine.execDiscardOtheraddr a s
  | .setO0Off a s1 x s2 k t => Sys2Proof.Machine.execSetO0Off a s1 x s2 k t s
  | .setO0On a s1 x s2 k t => Sys2Proof.Machine.execSetO0On a s1 x s2 k t s
  | .setO1Off a s1 x s2 k t => Sys2Proof.Machine.execSetO1Off a s1 x s2 k t s
  | .setO1On a s1 x s2 k t => Sys2Proof.Machine.execSetO1On a s1 x s2 k t s
  | .setO2Off a s1 x s2 k t => Sys2Proof.Machine.execSetO2Off a s1 x s2 k t s
  | .setO2On a s1 x s2 k t => Sys2Proof.Machine.execSetO2On a s1 x s2 k t s
  | .setO3Off a s1 x s2 k t => Sys2Proof.Machine.execSetO3Off a s1 x s2 k t s
  | .setO3On a s1 x s2 k t => Sys2Proof.Machine.execSetO3On a s1 x s2 k t s
  | .checksum a s1 c s2 k t => Sys2Proof.Machine.execChecksum a s1 c s2 k t s

end Sys2Proof.Machine
end

