-- ==== Sys2Proof/Machine/Fetch.lean ====
section
/-! DEFINITION. What the core reads at one clock edge: the pins, and the row its registers and the
sampled duration spell (10_state.md R30; 00_scope.md R17; assumption log 8). -/

namespace Sys2Proof.Machine

/-- The bit a duration spells, if it spells one (30_encoding.md R80, R81). -/
def spelledBit (cfg : Config) (d : Nat) : Option Bit :=
  match classify cfg d with
  | .zero => some false
  | .one => some true
  | .invalid => none

/-- The frame body that the terminator `t` completes: the three byte registers and `t`. The core does
not hold the separators it has taken (10_state.md R47); they stand here as `0`, the value expected of
them (30_encoding.md R87), and no meaning reads them (assumption log 10). -/
def heldFrame (s : State) (t : Bit) : FrameBody := frameBody s.addr false s.cmd false s.chk t

/-- The most specific row that a classified bit spells in a state, and `pulse` where only the pulse
itself is a row (assumption log 8). -/
def rowOfBit (s : State) (b : Bit) (pulse : Instr) : Instr :=
  match s.st with
  | .sync => decodeSyncBit s.pre b
  | .unused => decodeSyncBit s.pre b
  | .addr =>
    if s.idx = 7#3 then
      match decodeAddressByte s.cfg (shiftIn s.addr b) with
      | .ok i => i
      | .error _ => pulse
    else pulse
  | .term =>
    if checksumError s.addr s.cmd s.chk then decodeCheckedFrame (heldFrame s b)
    else
      match decodeMappedFrame (heldFrame s b) with
      | .ok i => i
      | .error _ => decodeCheckedFrame (heldFrame s b)
  | .ib1 => pulse
  | .cmd => pulse
  | .ib2 => pulse
  | .chk => pulse

/-- The row that a duration spells in a state: its pulse row, or the row of the bit it is. -/
def rowOfDuration (s : State) (d : Nat) : Except Reject Instr :=
  match decodeDuration s.cfg d with
  | .error r => .error r
  | .ok pulse =>
    match spelledBit s.cfg d with
    | none => .ok pulse
    | some b => .ok (rowOfBit s b pulse)

/-- What one clock edge asks of the core. -/
inductive EdgeEvent where
  /-- The model has no step. -/
  | refuse (r : Refusal)
  /-- No duration is consumed: a reset, or an idle edge. -/
  | settle (s : State)
  /-- A duration is consumed, and this row is run. -/
  | run (i : Instr)
deriving DecidableEq, Repr

/-- The edge of R30: an illegal configuration has no run (00_scope.md R13); `rst` beats a duration
(70_reset_and_hazards.md R291); `dur_valid` brings one; otherwise the core idles. An empty list of pin
samples is an edge without reset and duration (assumption log 3). -/
def nextEvent (s : State) : EdgeEvent :=
  if s.cfg.Legal then
    match s.input with
    | [] => .settle (idleEdge s)
    | pins :: _ =>
      if pins.rst then .settle (resetEdge s)
      else if pins.durValid then
        match rowOfDuration s pins.dur with
        | .ok i => .run i
        | .error _ => .refuse .durationTooWide
      else .settle (idleEdge s)
  else .refuse .illegalConfiguration

/-- The pins of an edge that brings the duration `d`. -/
def measurement (d : Nat) : Pins := { rst := false, durValid := true, dur := d }

/-- A duration that spells the bit `b` under the configuration: its threshold (30_encoding.md R80). -/
def durationOf (cfg : Config) (b : Bit) : Nat := if b then cfg.tOne else cfg.tZero

/-- The state with what a symbol's earlier bits leave in the registers, and its last bit, or its
duration, on the pins of the next edge. A sync bit `0` is placed under a preamble count that makes it
SYNC.IDLE, as it is right after reset (assumption log 11). -/
def placeSymbol (s : State) : Symbol → State
  | .duration d => { s with input := measurement d :: s.input }
  | .syncBit b =>
    { s with
      st := .sync
      pre := if b then s.pre else if InStartRange s.pre then 0#4 else s.pre
      input := measurement (durationOf s.cfg b) :: s.input }
  | .addressByte a =>
    { s with
      st := .addr, idx := 7#3, addr := 0b0#1 ++ a.extractLsb' 1 7
      input := measurement (durationOf s.cfg (a.getLsbD 0)) :: s.input }
  | .mappedFrame f =>
    { s with
      st := .term, idx := 0#3, addr := frameAddr f, cmd := frameCmd f, chk := frameChk f
      input := measurement (durationOf s.cfg (frameT f)) :: s.input }
  | .checkedFrame f =>
    { s with
      st := .term, idx := 0#3, addr := frameAddr f, cmd := frameCmd f, chk := frameChk f
      input := measurement (durationOf s.cfg (frameT f)) :: s.input }

/-- The state with a table word placed; a word of no format leaves the state as it is
(assumption log 11). -/
def placeTableWord (s : State) (nbits w : Nat) : State :=
  match tableSymbol nbits w with
  | .ok sym => placeSymbol s sym
  | .error _ => s

end Sys2Proof.Machine
end

