-- ==== Sys2Proof/Machine/Step.lean ====
section
/-! DEFINITION. One step of the machine is one rising edge of `clk` (10_state.md R30; 00_scope.md R17). -/

namespace Sys2Proof.Machine

/-- One clock edge: the row it spells is run, or no duration is consumed, or the model has no step. -/
def step (s : State) : Host.Outcome State Fault Refusal :=
  match nextEvent s with
  | .refuse r => .refused r
  | .settle s' => .next s'
  | .run i => exec i s

/-- The state in which the very next step runs the instruction of a table word (assumption log 11). -/
def State.withFetchWord (s : State) (nbits w : Nat) : State := placeTableWord s nbits w

end Sys2Proof.Machine
end

