-- ==== Sys2Proof/Safety.lean ====
section
/-! DEFINITION. What statements about the machine are said in: the invariants of a run, what an input
stream spells, a run of several edges, the action port, and the relations between two states
(10_state.md R48; 60_exceptions.md R271). -/

namespace Sys2Proof.Machine

/-! The invariant. -/

/-- A pin sample that the port can carry: `dur` has `DUR_W` wires (10_state.md R31). -/
abbrev Pins.Fits (cfg : Config) (p : Pins) : Prop := p.dur < 2 ^ cfg.durW

/-- The states past the address filter (43_packet_decoder.md R163). -/
def DecState.pastFilter : DecState → Bool
  | .sync => false
  | .addr => false
  | .ib1 => true
  | .cmd => true
  | .ib2 => true
  | .chk => true
  | .term => true
  | .unused => false

/-- The states that assemble a byte (42_byte_assembler.md, head). -/
def DecState.inByte : DecState → Bool
  | .sync => false
  | .addr => true
  | .ib1 => false
  | .cmd => true
  | .ib2 => false
  | .chk => true
  | .term => false
  | .unused => false

/-- No counter is above `2^CNT_W - 1` (10_state.md R45). -/
abbrev CountersInRange (s : State) : Prop :=
  s.cntChk ≤ s.cfg.countMax ∧ s.cntCmd ≤ s.cfg.countMax ∧
    s.cntAddr ≤ s.cfg.countMax ∧ s.cntNoise ≤ s.cfg.countMax

/-- The invariants of 10_state.md R48 that are facts of one state. -/
abbrev StateInvariants (s : State) : Prop :=
  s.st ≠ .unused ∧ (s.st ≠ .sync → s.pre = 0#4) ∧ (s.st.inByte = false → s.idx = 0#3) ∧
    s.retry < s.cfg.retryCap

/-- Past the filter, the address byte is one that passed it (45_output_mapper.md R220, R221). -/
abbrev FilterHeld (s : State) : Prop := s.st.pastFilter = true → passesFilter s.cfg s.addr = true

/-- The action port and the output levels agree in a cycle with `act_valid = 1` (45_output_mapper.md
R223). -/
abbrev StrobeAgrees (s : State) : Prop :=
  s.actValid = true →
    s.actLine = s.cfg.outMap.line s.actIndex ∧ s.outLevel.getLsbD s.actLine.toNat = s.actValue

/-- The invariant of a run: a legal configuration, pin samples the port can carry, the invariants of
R48, the counters in their range, the filter's verdict, the action port. -/
abbrev Inv (s : State) : Prop :=
  s.cfg.Legal ∧ (∀ p ∈ s.input, p.Fits s.cfg) ∧ StateInvariants s ∧ CountersInRange s ∧
    FilterHeld s ∧ StrobeAgrees s

/-! Input streams. -/

/-- The duration `d` is one the port can carry and is the bit `b` (30_encoding.md R80, R81). -/
abbrev Spells (cfg : Config) (d : Nat) (b : Bit) : Prop :=
  d < 2 ^ cfg.durW ∧ classify cfg d = if b then .one else .zero

/-- The duration `d` is one the port can carry and is noise (30_encoding.md R94). -/
abbrev SpellsNoise (cfg : Config) (d : Nat) : Prop :=
  d < 2 ^ cfg.durW ∧ classify cfg d = .invalid

/-- The durations spell the bits, one duration a bit (30_encoding.md R80; 90_conflicts.md C10). -/
def SpellsBits (cfg : Config) : List Nat → List Bit → Prop
  | [], [] => True
  | d :: ds, b :: bs => Spells cfg d b ∧ SpellsBits cfg ds bs
  | [], _ :: _ => False
  | _ :: _, [] => False

/-- The pin samples that bring the durations, one an edge, without reset. -/
def measurements (ds : List Nat) : List Pins := ds.map measurement

/-- The 8 bits of a byte in the order they arrive, bit 7 first (20_memory.md R64). -/
def wireBits (b : Byte) : List Bit :=
  [b.getLsbD 7, b.getLsbD 6, b.getLsbD 5, b.getLsbD 4,
    b.getLsbD 3, b.getLsbD 2, b.getLsbD 1, b.getLsbD 0]

/-- The 27 bits of a frame body in the order they arrive (30_encoding.md R83). -/
def frameWireBits (a : Byte) (s1 : Bit) (c : Byte) (s2 : Bit) (k : Byte) (t : Bit) : List Bit :=
  wireBits a ++ [s1] ++ wireBits c ++ [s2] ++ wireBits k ++ [t]

/-! Runs. -/

/-- `n` clock edges of the core. -/
def runEdges (n : Nat) (s : State) : Host.Outcome State Fault Refusal := Host.Core.run Sys2Proof.core n s

/-- One action (10_state.md R33). -/
structure Action where
  index : BitVec 2
  line : BitVec 2
  value : Bit
deriving DecidableEq, Repr

/-- What the action port shows (10_state.md R33, R34): its registers mean something only in a cycle
with `act_valid = 1`. -/
def actionPort (s : State) : Option Action :=
  if s.actValid then some ⟨s.actIndex, s.actLine, s.actValue⟩ else none

/-- The actions emitted in the first `n` edges, in order (60_exceptions.md R271). -/
def actionsOf : Nat → State → List Action
  | 0, _ => []
  | n + 1, s =>
    match step s with
    | .next s' => (actionPort s').toList ++ actionsOf n s'
    | .fault _ => []
    | .refused _ => []

/-! Two states that differ only in what no rule reads. -/

/-- The low `n` bits of two bytes agree. -/
abbrev LowBitsAgree (n : Nat) (x y : Byte) : Prop := ∀ i < n, x.getLsbD i = y.getLsbD i

/-- The bits of the address byte received in this attempt agree (42_byte_assembler.md R147). -/
abbrev AddrAgrees (s u : State) : Prop :=
  match s.st with
  | .sync => True
  | .unused => True
  | .addr => LowBitsAgree s.idx.toNat s.addr u.addr
  | .ib1 => s.addr = u.addr
  | .cmd => s.addr = u.addr
  | .ib2 => s.addr = u.addr
  | .chk => s.addr = u.addr
  | .term => s.addr = u.addr

/-- The bits of the command byte received in this attempt agree (42_byte_assembler.md R147). -/
abbrev CmdAgrees (s u : State) : Prop :=
  match s.st with
  | .sync => True
  | .unused => True
  | .addr => True
  | .ib1 => True
  | .cmd => LowBitsAgree s.idx.toNat s.cmd u.cmd
  | .ib2 => s.cmd = u.cmd
  | .chk => s.cmd = u.cmd
  | .term => s.cmd = u.cmd

/-- The bits of the checksum byte received in this attempt agree (42_byte_assembler.md R147). -/
abbrev ChkAgrees (s u : State) : Prop :=
  match s.st with
  | .sync => True
  | .unused => True
  | .addr => True
  | .ib1 => True
  | .cmd => True
  | .ib2 => True
  | .chk => LowBitsAgree s.idx.toNat s.chk u.chk
  | .term => s.chk = u.chk

/-- Two states are alike but for byte-register bits that were not received in this packet attempt
(42_byte_assembler.md R147; 10_state.md R51). -/
abbrev SameButStaleBytes (s u : State) : Prop :=
  u = { s with addr := u.addr, cmd := u.cmd, chk := u.chk } ∧
    AddrAgrees s u ∧ CmdAgrees s u ∧ ChkAgrees s u

/-! The transition table. -/

/-- The successors of a decoder state on a bit (43_packet_decoder.md R163, columns `st` and next
`st`). -/
def nextStates : DecState → List DecState
  | .sync => [.sync, .addr]
  | .addr => [.addr, .ib1, .sync]
  | .ib1 => [.cmd]
  | .cmd => [.cmd, .ib2]
  | .ib2 => [.chk]
  | .chk => [.chk, .term]
  | .term => [.sync]
  | .unused => [.sync, .addr]

/-- What a duration is to the table (43_packet_decoder.md R163, column `input`). -/
inductive ClassifiedInput where
  | invalid
  | bit (b : Bit)
deriving DecidableEq, Repr

/-- What every edge with a valid bit does besides its row: the sample is used up (assumption log 3),
the strobe falls unless an action raises it, and `retry <- 0` (43_packet_decoder.md R163). -/
def withBit (s : State) : State := { s with input := s.input.tail, actValid := false, retry := 0 }

/-- `min(c + n, 2^CNT_W - 1)`, the count of 00_scope.md R16. -/
def counted (s : State) (c n : Nat) : Nat := min (c + n) s.cfg.countMax

/-- 0 for a terminator `1`, else 1 (43_packet_decoder.md R175). -/
def badTerminator (t : Bit) : Nat := if t then 0 else 1

/-- The end of a `TERM` step with a good checksum: the terminator is counted, the action on `fn` with
value `v` is dispatched, the state returns to `SYNC` (43_packet_decoder.md R163, R174; 45_output_mapper.md
R223). -/
def afterAction (fn : BitVec 2) (v t : Bit) (s : State) : State :=
  { withBit s with
    st := .sync
    pre := 0#4
    cntChk := counted s s.cntChk (badTerminator t)
    outLevel := setLevel s.outLevel (s.cfg.outMap.line fn) v
    actValid := true
    actIndex := fn
    actLine := s.cfg.outMap.line fn
    actValue := v }

/-- The end of a `TERM` step with a bad checksum: both counts in one update, no action
(43_packet_decoder.md R163, R174; 44_checksum_validator.md R202, R204). -/
def afterMismatch (t : Bit) (s : State) : State :=
  { withBit s with
    st := .sync, pre := 0#4, cntChk := counted s s.cntChk (1 + badTerminator t) }

/-- The transition table of 43_packet_decoder.md R163, row by row in its order, with the frame: what a
row does not name is unchanged. The rows of `SYNC` are those of the unused code too
(43_packet_decoder.md R164; assumption log 7). -/
inductive TableRow (s : State) : ClassifiedInput → State → Prop
  | retried : s.retry + 1 < s.cfg.retryCap →
      TableRow s .invalid { s with
        input := s.input.tail, actValid := false, cntNoise := counted s s.cntNoise 1, retry := s.retry + 1 }
  | givenUp : s.retry + 1 ≥ s.cfg.retryCap →
      TableRow s .invalid { s with
        input := s.input.tail, actValid := false, cntNoise := counted s s.cntNoise 1
        st := .sync, pre := 0#4, idx := 0#3, retry := 0 }
  | syncOne : s.st = .sync ∨ s.st = .unused →
      TableRow s (.bit true) { withBit s with st := .sync, pre := BitVec.ofNat 4 (min (s.pre.toNat + 1) 15) }
  | syncStart : s.st = .sync ∨ s.st = .unused → 10 ≤ s.pre.toNat ∧ s.pre.toNat ≤ 14 →
      TableRow s (.bit false) { withBit s with st := .addr, pre := 0#4, idx := 0#3 }
  | syncIdle : s.st = .sync ∨ s.st = .unused → ¬(10 ≤ s.pre.toNat ∧ s.pre.toNat ≤ 14) →
      TableRow s (.bit false) { withBit s with st := .sync, pre := 0#4 }
  | addrShift (b : Bit) : s.st = .addr → s.idx.toNat < 7 →
      TableRow s (.bit b) { withBit s with addr := shiftIn s.addr b, idx := s.idx + 1#3 }
  | addrPass (b : Bit) : s.st = .addr → s.idx.toNat = 7 →
      (shiftIn s.addr b).extractLsb' 6 2 = 0b10#2 →
      ((shiftIn s.addr b).extractLsb' 0 6).toNat = s.cfg.baseAddr →
      TableRow s (.bit b) { withBit s with addr := shiftIn s.addr b, idx := 0#3, st := .ib1 }
  | addrDiscard (b : Bit) : s.st = .addr → s.idx.toNat = 7 →
      ¬((shiftIn s.addr b).extractLsb' 6 2 = 0b10#2 ∧
        ((shiftIn s.addr b).extractLsb' 0 6).toNat = s.cfg.baseAddr) →
      TableRow s (.bit b)
        { withBit s with addr := shiftIn s.addr b, idx := 0#3, st := .sync, pre := 0#4 }
  | ib1Zero : s.st = .ib1 → TableRow s (.bit false) { withBit s with st := .cmd }
  | ib1One : s.st = .ib1 →
      TableRow s (.bit true) { withBit s with st := .cmd, cntAddr := counted s s.cntAddr 1 }
  | cmdShift (b : Bit) : s.st = .cmd → s.idx.toNat < 7 →
      TableRow s (.bit b) { withBit s with cmd := shiftIn s.cmd b, idx := s.idx + 1#3 }
  | cmdDone (b : Bit) : s.st = .cmd → s.idx.toNat = 7 →
      TableRow s (.bit b) { withBit s with cmd := shiftIn s.cmd b, idx := 0#3, st := .ib2 }
  | ib2Zero : s.st = .ib2 → TableRow s (.bit false) { withBit s with st := .chk }
  | ib2One : s.st = .ib2 →
      TableRow s (.bit true) { withBit s with st := .chk, cntCmd := counted s s.cntCmd 1 }
  | chkShift (b : Bit) : s.st = .chk → s.idx.toNat < 7 →
      TableRow s (.bit b) { withBit s with chk := shiftIn s.chk b, idx := s.idx + 1#3 }
  | chkDone (b : Bit) : s.st = .chk → s.idx.toNat = 7 →
      TableRow s (.bit b) { withBit s with chk := shiftIn s.chk b, idx := 0#3, st := .term }
  | termGood (b : Bit) : s.st = .term → s.chk = s.addr ^^^ s.cmd →
      TableRow s (.bit b) (afterAction (s.cmd.extractLsb' 1 2) (s.cmd.getLsbD 0) b s)
  | termBad (b : Bit) : s.st = .term → s.chk ≠ s.addr ^^^ s.cmd →
      TableRow s (.bit b) (afterMismatch b s)

/-- The bit at which a row is complete: the pulse's own, the sync bit, the last bit of the address byte,
the terminator of the frame body; none for an `Invalid` (30_encoding.md R80 to R91). -/
def lastBit : Instr → Option Bit
  | .pulseZero _ => some false
  | .pulseOne _ => some true
  | .pulseInvalid _ => none
  | .syncOne => some true
  | .syncStart => some false
  | .syncIdle => some false
  | .discardNotacc0 x => some (x.getLsbD 0)
  | .discardNotacc11 x => some (x.getLsbD 0)
  | .discardOtheraddr a => some (a.getLsbD 0)
  | .setO0Off _ _ _ _ _ t => some t
  | .setO0On _ _ _ _ _ t => some t
  | .setO1Off _ _ _ _ _ t => some t
  | .setO1On _ _ _ _ _ t => some t
  | .setO2Off _ _ _ _ _ t => some t
  | .setO2On _ _ _ _ _ t => some t
  | .setO3Off _ _ _ _ _ t => some t
  | .setO3On _ _ _ _ _ t => some t
  | .checksum _ _ _ _ _ t => some t

end Sys2Proof.Machine
end

