-- ==== Sys2Proof/Certificates/Slice0/Obligations.lean ====
section
/-! DEFINITION. The statements for the provers. In every one of them `input := s.input.tail`, also inside
`withBit`, `afterAction` and `afterMismatch`, says that the edge's pin sample is used up, the model's
form of one clock edge (assumption log 3). A configuration stands in the state, so a statement about
every state is one about every configuration (assumption log 1). -/

open Sys2Proof Sys2Proof.Machine

/-- In SYNC, SYNC.ONE answers a next state in which pre is min(pre + 1, 15), retry is 0, the strobe is
low and every other register is unchanged. What R121 says is pre and st; retry is R106, the strobe
R33; that the pin sample is used up is the model's form of an edge (assumption log 3).
(41_frame_synchronizer.md, R121; 40_bit_classifier.md section 2, R106; 10_state.md section 2, R33;
assumption log 3) -/
def Obligations.SyncOneCountsPreamble : Prop :=
  ∀ s : State, s.st = .sync →
    exec .syncOne s = .next { s with
      input := s.input.tail, actValid := false, retry := 0
      pre := BitVec.ofNat 4 (min (s.pre.toNat + 1) 15) }

/-- In SYNC with 10 <= pre <= 14, SYNC.START answers a next state with st = ADDR, pre = 0, idx = 0,
retry = 0, the strobe low and every other register unchanged. What R122 says is st, pre and idx;
retry is R106, the strobe R33; that the pin sample is used up is the model's form of an edge
(assumption log 3). (41_frame_synchronizer.md, R122; 40_bit_classifier.md section 2, R106;
10_state.md section 2, R33; assumption log 3) -/
def Obligations.SyncStartOpensFrame : Prop :=
  ∀ s : State, s.st = .sync → 10 ≤ s.pre.toNat → s.pre.toNat ≤ 14 →
    exec .syncStart s = .next { s with
      input := s.input.tail, actValid := false, retry := 0
      st := .addr, pre := 0#4, idx := 0#3 }

/-- In SYNC with pre < 10 or pre > 14, SYNC.IDLE answers a next state with pre = 0, retry = 0, the
strobe low and every other register, st among them, unchanged. What R123 says is pre and st; retry
is R106, the strobe R33; that the pin sample is used up is the model's form of an edge (assumption
log 3). (41_frame_synchronizer.md, R123; 40_bit_classifier.md section 2, R106; 10_state.md section
2, R33; assumption log 3) -/
def Obligations.SyncIdleClearsPreamble : Prop :=
  ∀ s : State, s.st = .sync → (s.pre.toNat < 10 ∨ 14 < s.pre.toNat) →
    exec .syncIdle s = .next { s with
      input := s.input.tail, actValid := false, retry := 0, pre := 0#4 }

/-- For every duration operand and every state, PULSE.ZERO answers a next state, and that state is the
one the transition table of R163 gives for the bit 0, frame included; the unused code takes the
rows of SYNC (the model writes st = SYNC there, assumption log 7). TableRow is the table, each row
one complete next state. (43_packet_decoder.md section 1, R163; 40_bit_classifier.md section 1,
R101, R106; R164) -/
def Obligations.PulseZeroFollowsTable : Prop :=
  ∀ (d : Nat) (s : State), ∃ t, exec (.pulseZero d) s = .next t ∧ TableRow s (.bit false) t

/-- For every duration operand and every state, PULSE.ONE answers a next state, and that state is the
one the transition table of R163 gives for the bit 1, frame included; the unused code takes the
rows of SYNC (the model writes st = SYNC there, assumption log 7). (43_packet_decoder.md section
1, R163; 40_bit_classifier.md section 1, R102, R106; R164) -/
def Obligations.PulseOneFollowsTable : Prop :=
  ∀ (d : Nat) (s : State), ∃ t, exec (.pulseOne d) s = .next t ∧ TableRow s (.bit true) t

/-- For every state and input, two next states that the transition table allows are equal, so
following the table fixes the step. (43_packet_decoder.md section 1, R163) -/
def Obligations.TableHasOneRowForEachInput : Prop :=
  ∀ (s t u : State) (x : ClassifiedInput), TableRow s x t → TableRow s x u → t = u

/-- For every operand and state: below the cap PULSE.INVALID adds 1 to cnt_noise, saturating, and 1 to
retry; at the cap it adds 1 to cnt_noise and aborts, st = SYNC and pre, idx and retry 0. The
strobe is low and every other register is unchanged. (40_bit_classifier.md section 2, R103 to
R105; 43_packet_decoder.md section 1, R163, R166) -/
def Obligations.PulseInvalidRetriesOrGivesUp : Prop :=
  ∀ (d : Nat) (s : State),
    (s.retry + 1 < s.cfg.retryCap →
      exec (.pulseInvalid d) s = .next { s with
        input := s.input.tail, actValid := false
        cntNoise := min (s.cntNoise + 1) (2 ^ s.cfg.cntW - 1), retry := s.retry + 1 }) ∧
    (s.cfg.retryCap ≤ s.retry + 1 →
      exec (.pulseInvalid d) s = .next { s with
        input := s.input.tail, actValid := false
        cntNoise := min (s.cntNoise + 1) (2 ^ s.cfg.cntW - 1)
        st := .sync, pre := 0#4, idx := 0#3, retry := 0 })

/-- In ADDR with idx = 7 and the seven bits so far being the first seven of the row's byte,
DISCARD.NOTACC.0 answers a next state with addr the completed byte, idx = 0, st = SYNC, pre = 0,
retry = 0, the strobe low, and every other register, all counters among them, unchanged.
(45_output_mapper.md section 1, R220; 42_byte_assembler.md, R141, R142) -/
def Obligations.NotAccessoryZeroByteIsDiscarded : Prop :=
  ∀ (x : BitVec 7) (s : State), s.st = .addr → s.idx = 7#3 →
    s.addr.extractLsb' 0 7 = ((0b0#1 ++ x : Byte)).extractLsb' 1 7 →
    exec (.discardNotacc0 x) s = .next { s with
      input := s.input.tail, actValid := false, retry := 0
      addr := 0b0#1 ++ x, idx := 0#3, st := .sync, pre := 0#4 }

/-- In ADDR with idx = 7 and the seven bits so far being the first seven of the row's byte,
DISCARD.NOTACC.11 answers a next state with addr the completed byte, idx = 0, st = SYNC, pre = 0,
retry = 0, the strobe low, and every other register, all counters among them, unchanged.
(45_output_mapper.md section 1, R220; 42_byte_assembler.md, R141, R142) -/
def Obligations.NotAccessoryElevenByteIsDiscarded : Prop :=
  ∀ (x : BitVec 6) (s : State), s.st = .addr → s.idx = 7#3 →
    s.addr.extractLsb' 0 7 = ((0b11#2 ++ x : Byte)).extractLsb' 1 7 →
    exec (.discardNotacc11 x) s = .next { s with
      input := s.input.tail, actValid := false, retry := 0
      addr := 0b11#2 ++ x, idx := 0#3, st := .sync, pre := 0#4 }

/-- In ADDR with idx = 7, the seven bits so far being the first seven of 10aaaaaa and a not the base
address, DISCARD.OTHERADDR answers a next state with addr the completed byte, idx = 0, st = SYNC,
pre = 0, retry = 0, the strobe low, and every other register, all counters among them, unchanged.
(45_output_mapper.md section 1, R221; 42_byte_assembler.md, R141, R142) -/
def Obligations.OtherAddressIsDiscarded : Prop :=
  ∀ (a : BitVec 6) (s : State), s.st = .addr → s.idx = 7#3 → a.toNat ≠ s.cfg.baseAddr →
    s.addr.extractLsb' 0 7 = ((0b10#2 ++ a : Byte)).extractLsb' 1 7 →
    exec (.discardOtheraddr a) s = .next { s with
      input := s.input.tail, actValid := false, retry := 0
      addr := 0b10#2 ++ a, idx := 0#3, st := .sync, pre := 0#4 }

/-- In TERM with the byte registers holding the row's frame and a good checksum, SET.O0.OFF and
SET.O0.ON each answer the next state with out_level bit OUT_MAP[0] set to 0 or 1, act_valid = 1,
act_index = 0, act_line = OUT_MAP[0], act_value the value, cnt_chk up by 1 exactly if the
terminator is 0, st = SYNC, pre = 0, retry = 0, and every other register unchanged, whatever s1,
s2 and cmd[7:3] are. (45_output_mapper.md section 2, R223, R225, R226; 43_packet_decoder.md
section 2, R173 to R175) -/
def Obligations.SetOutput0DispatchesItsAction : Prop :=
  ∀ (a : BitVec 6) (s1 : Bit) (x : BitVec 5) (s2 : Bit) (k : Byte) (t : Bit) (s : State),
    s.st = .term → s.addr = 0b10#2 ++ a → s.chk = k →
    (s.cmd = x ++ 0#3 → k = s.addr ^^^ s.cmd →
      exec (.setO0Off a s1 x s2 k t) s = .next (afterAction 0#2 false t s)) ∧
    (s.cmd = x ++ 1#3 → k = s.addr ^^^ s.cmd →
      exec (.setO0On a s1 x s2 k t) s = .next (afterAction 0#2 true t s))

/-- In TERM with the byte registers holding the row's frame and a good checksum, SET.O1.OFF and
SET.O1.ON each answer the next state with out_level bit OUT_MAP[1] set to 0 or 1, act_valid = 1,
act_index = 1, act_line = OUT_MAP[1], act_value the value, cnt_chk up by 1 exactly if the
terminator is 0, st = SYNC, pre = 0, retry = 0, and every other register unchanged, whatever s1,
s2 and cmd[7:3] are. (45_output_mapper.md section 2, R223, R227, R228; 43_packet_decoder.md
section 2, R173 to R175) -/
def Obligations.SetOutput1DispatchesItsAction : Prop :=
  ∀ (a : BitVec 6) (s1 : Bit) (x : BitVec 5) (s2 : Bit) (k : Byte) (t : Bit) (s : State),
    s.st = .term → s.addr = 0b10#2 ++ a → s.chk = k →
    (s.cmd = x ++ 2#3 → k = s.addr ^^^ s.cmd →
      exec (.setO1Off a s1 x s2 k t) s = .next (afterAction 1#2 false t s)) ∧
    (s.cmd = x ++ 3#3 → k = s.addr ^^^ s.cmd →
      exec (.setO1On a s1 x s2 k t) s = .next (afterAction 1#2 true t s))

/-- In TERM with the byte registers holding the row's frame and a good checksum, SET.O2.OFF and
SET.O2.ON each answer the next state with out_level bit OUT_MAP[2] set to 0 or 1, act_valid = 1,
act_index = 2, act_line = OUT_MAP[2], act_value the value, cnt_chk up by 1 exactly if the
terminator is 0, st = SYNC, pre = 0, retry = 0, and every other register unchanged, whatever s1,
s2 and cmd[7:3] are. (45_output_mapper.md section 2, R223, R229, R230; 43_packet_decoder.md
section 2, R173 to R175) -/
def Obligations.SetOutput2DispatchesItsAction : Prop :=
  ∀ (a : BitVec 6) (s1 : Bit) (x : BitVec 5) (s2 : Bit) (k : Byte) (t : Bit) (s : State),
    s.st = .term → s.addr = 0b10#2 ++ a → s.chk = k →
    (s.cmd = x ++ 4#3 → k = s.addr ^^^ s.cmd →
      exec (.setO2Off a s1 x s2 k t) s = .next (afterAction 2#2 false t s)) ∧
    (s.cmd = x ++ 5#3 → k = s.addr ^^^ s.cmd →
      exec (.setO2On a s1 x s2 k t) s = .next (afterAction 2#2 true t s))

/-- In TERM with the byte registers holding the row's frame and a good checksum, SET.O3.OFF and
SET.O3.ON each answer the next state with out_level bit OUT_MAP[3] set to 0 or 1, act_valid = 1,
act_index = 3, act_line = OUT_MAP[3], act_value the value, cnt_chk up by 1 exactly if the
terminator is 0, st = SYNC, pre = 0, retry = 0, and every other register unchanged, whatever s1,
s2 and cmd[7:3] are. (45_output_mapper.md section 2, R223, R231, R232; 43_packet_decoder.md
section 2, R173 to R175) -/
def Obligations.SetOutput3DispatchesItsAction : Prop :=
  ∀ (a : BitVec 6) (s1 : Bit) (x : BitVec 5) (s2 : Bit) (k : Byte) (t : Bit) (s : State),
    s.st = .term → s.addr = 0b10#2 ++ a → s.chk = k →
    (s.cmd = x ++ 6#3 → k = s.addr ^^^ s.cmd →
      exec (.setO3Off a s1 x s2 k t) s = .next (afterAction 3#2 false t s)) ∧
    (s.cmd = x ++ 7#3 → k = s.addr ^^^ s.cmd →
      exec (.setO3On a s1 x s2 k t) s = .next (afterAction 3#2 true t s))

/-- In TERM with the byte registers holding the row's frame and a wrong checksum, each of the eight
SET rows answers the next state with cnt_chk up by 1, or by 2 if the terminator is 0 as well, st =
SYNC, pre = 0, retry = 0, the strobe low, and every other register, out_level among them,
unchanged. (44_checksum_validator.md, R201, R202, R204; 45_output_mapper.md section 2, R223, R225
to R232) -/
def Obligations.MismatchSuppressesEverySetRow : Prop :=
  ∀ (a : BitVec 6) (s1 : Bit) (x : BitVec 5) (s2 : Bit) (k : Byte) (t : Bit) (s : State),
    s.st = .term → s.addr = 0b10#2 ++ a → s.chk = k → k ≠ s.addr ^^^ s.cmd →
    (s.cmd = x ++ 0#3 → exec (.setO0Off a s1 x s2 k t) s = .next (afterMismatch t s)) ∧
    (s.cmd = x ++ 1#3 → exec (.setO0On a s1 x s2 k t) s = .next (afterMismatch t s)) ∧
    (s.cmd = x ++ 2#3 → exec (.setO1Off a s1 x s2 k t) s = .next (afterMismatch t s)) ∧
    (s.cmd = x ++ 3#3 → exec (.setO1On a s1 x s2 k t) s = .next (afterMismatch t s)) ∧
    (s.cmd = x ++ 4#3 → exec (.setO2Off a s1 x s2 k t) s = .next (afterMismatch t s)) ∧
    (s.cmd = x ++ 5#3 → exec (.setO2On a s1 x s2 k t) s = .next (afterMismatch t s)) ∧
    (s.cmd = x ++ 6#3 → exec (.setO3Off a s1 x s2 k t) s = .next (afterMismatch t s)) ∧
    (s.cmd = x ++ 7#3 → exec (.setO3On a s1 x s2 k t) s = .next (afterMismatch t s))

/-- In TERM with the byte registers holding the row's frame, CHECKSUM answers a next state: on a
mismatch cnt_chk goes up by 1, or by 2 with a bad terminator, and nothing is dispatched; on a
match the action of cmd[2:1] and cmd[0] is dispatched and only a bad terminator is counted. In
both st = SYNC, pre = 0, retry = 0, and every other register is unchanged.
(44_checksum_validator.md, R200 to R206; 45_output_mapper.md section 2, R222, R223) -/
def Obligations.ChecksumRowDecidesTheStep : Prop :=
  ∀ (a : Byte) (s1 : Bit) (c : Byte) (s2 : Bit) (k : Byte) (t : Bit) (s : State),
    s.st = .term → s.addr = a → s.cmd = c → s.chk = k →
    (k ≠ a ^^^ c → exec (.checksum a s1 c s2 k t) s = .next (afterMismatch t s)) ∧
    (k = a ^^^ c → exec (.checksum a s1 c s2 k t) s =
      .next (afterAction (c.extractLsb' 1 2) (c.getLsbD 0) t s))

/-- In TERM with a good checksum and every counter in its range, a terminator 1 (PULSE.ONE) answers a
next state in which all four counters are unchanged. This is R206 for the terminator 1; for the
terminator 0, which R175 counts, see WrongTerminatorCountsOnceMore. (44_checksum_validator.md,
R202, R206; 43_packet_decoder.md section 2, R175; 10_state.md section 3, R45) -/
def Obligations.GoodChecksumCountsNothing : Prop :=
  ∀ (d : Nat) (s : State), CountersInRange s → s.st = .term → s.chk = s.addr ^^^ s.cmd →
    ∃ t, exec (.pulseOne d) s = .next t ∧ t.cntChk = s.cntChk ∧ t.cntCmd = s.cntCmd ∧
      t.cntAddr = s.cntAddr ∧ t.cntNoise = s.cntNoise

/-- In TERM, a valid bit of either value answers a next state with st = SYNC and pre = 0, whatever the
checksum and the terminator are. (R174) -/
def Obligations.TerminatorStepReturnsToSync : Prop :=
  ∀ (d : Nat) (s : State), s.st = .term →
    (∃ t, exec (.pulseZero d) s = .next t ∧ t.st = .sync ∧ t.pre = 0#4) ∧
    (∃ t, exec (.pulseOne d) s = .next t ∧ t.st = .sync ∧ t.pre = 0#4)

/-- In TERM, cnt_chk after a terminator 0 is min(c + 1, max) where c + 0 or c + 1 is what the checksum
alone would count, that is: it is the saturating sum of cnt_chk, 1 if the checksum is wrong, and
1; after a terminator 1 it is the same without the last 1. (43_packet_decoder.md section 2, R175) -/
def Obligations.WrongTerminatorCountsOnceMore : Prop :=
  ∀ (d : Nat) (s : State), s.st = .term →
    ∃ t u, exec (.pulseZero d) s = .next t ∧ exec (.pulseOne d) s = .next u ∧
      t.cntChk = min (s.cntChk + (if s.chk = s.addr ^^^ s.cmd then 0 else 1) + 1) (2 ^ s.cfg.cntW - 1) ∧
      u.cntChk = min (s.cntChk + (if s.chk = s.addr ^^^ s.cmd then 0 else 1)) (2 ^ s.cfg.cntW - 1)

/-- For every address and command byte, the flag is clear for the checksum addr XOR cmd and set for it
with any nonzero set of bits flipped. (44_checksum_validator.md, R200, R201, R203) -/
def Obligations.ChecksumFlagIsNotAParity : Prop :=
  ∀ a c m : Byte, checksumError a c (a ^^^ c) = false ∧
    (m ≠ 0#8 → checksumError a c (a ^^^ c ^^^ m) = true)

/-- For every configuration with T_ONE <= T_ZERO and every duration: Zero exactly when T_ZERO <= d,
One exactly when T_ONE <= d < T_ZERO, Invalid exactly when d < T_ONE. (R100) -/
def Obligations.ClassifierRanges : Prop :=
  ∀ (cfg : Config) (d : Nat), cfg.tOne ≤ cfg.tZero →
    (classify cfg d = .zero ↔ cfg.tZero ≤ d) ∧
    (classify cfg d = .one ↔ cfg.tOne ≤ d ∧ d < cfg.tZero) ∧
    (classify cfg d = .invalid ↔ d < cfg.tOne)

/-- With a legal configuration and a duration of DUR_W bits on the pins, the step is exec of the
instruction that the duration decodes to, and equally of the one its bit decodes to in SYNC, of
the one the completed address byte decodes to at idx = 7 in ADDR, and of those the completed frame
body decodes to in TERM, for either reader and any separators. The step adds nothing around exec:
the meaning itself uses the edge up (assumption logs 3, 8). (00_scope.md section 5, R17;
43_packet_decoder.md section 1, R162; 30_encoding.md sections 1 to 4, R80 to R91) -/
def Obligations.StepRunsDecodedInstruction : Prop :=
  ∀ (s : State) (d : Nat) (ps : List Pins) (i : Instr),
    s.cfg.Legal → s.input = measurement d :: ps → d < 2 ^ s.cfg.durW →
    (decode s.cfg s.pre (.duration d) = .ok i → step s = exec i s) ∧
    (∀ b, spelledBit s.cfg d = some b →
      (s.st = .sync → decode s.cfg s.pre (.syncBit b) = .ok i → step s = exec i s) ∧
      (s.st = .addr → s.idx = 7#3 →
        decode s.cfg s.pre (.addressByte (shiftIn s.addr b)) = .ok i → step s = exec i s) ∧
      (∀ s1 s2, s.st = .term →
        (decode s.cfg s.pre (.mappedFrame (frameBody s.addr s1 s.cmd s2 s.chk b)) = .ok i →
          step s = exec i s) ∧
        (decode s.cfg s.pre (.checkedFrame (frameBody s.addr s1 s.cmd s2 s.chk b)) = .ok i →
          step s = exec i s)))

/-- With a legal configuration and a duration of DUR_W bits on the pins, the step answers a next
state, and it is the one that the transition table gives for the duration's class: the row-by-row
step through the decoder is the table of R163 (the unused code taking the rows of SYNC, assumption
log 7). (43_packet_decoder.md section 1, R162, R163; 10_state.md section 1, R30; R164) -/
def Obligations.StepFollowsTable : Prop :=
  ∀ (s : State) (d : Nat) (ps : List Pins),
    s.cfg.Legal → s.input = measurement d :: ps → d < 2 ^ s.cfg.durW →
    ∃ t, step s = .next t ∧ TableRow s
      (match classify s.cfg d with | .zero => .bit false | .one => .bit true | .invalid => .invalid) t

/-- For every instruction and every state, exec is the step function of R162 on the bit that completes
the row, or on an Invalid: no row does anything the step does not. Where the row's condition does
not hold of the state this is the model's choice (assumption log 9). (43_packet_decoder.md section
1, R162; assumption log 9) -/
def Obligations.EveryRowIsABranchOfTheStep : Prop :=
  ∀ (i : Instr) (s : State), exec i s =
    .next (match lastBit i with | some b => consumeBit b s | none => consumeInvalid s)

/-- For every state with a legal configuration, every table word and the instruction that it decodes
to under that configuration and pre = 0, the step after placing the word is exec of that
instruction. The placing is the model's (assumption logs 11, 16). (assumption logs 11 and 16;
00_scope.md section 5, R17) -/
def Obligations.PlacedTableWordRunsNext : Prop :=
  ∀ (s : State) (nbits w : Nat) (sym : Symbol) (i : Instr),
    s.cfg.Legal → tableSymbol nbits w = .ok sym → decode s.cfg 0#4 sym = .ok i →
    step (s.withFetchWord nbits w) = exec i (s.withFetchWord nbits w)

/-- With a legal configuration and rst = 1 on the pins, whatever dur_valid and dur are, the step
answers the next state in which every register has its reset value. (70_reset_and_hazards.md
section 1, R290, R291; 10_state.md section 3, R49) -/
def Obligations.ResetEdgeBeatsDuration : Prop :=
  ∀ (s : State) (p : Pins) (ps : List Pins),
    s.cfg.Legal → s.input = p :: ps → p.rst = true →
    step s = .next
      { cfg := s.cfg, input := ps, st := .sync, pre := 0#4, idx := 0#3, retry := 0
        addr := 0x00#8, cmd := 0x00#8, chk := 0x00#8
        cntChk := 0, cntCmd := 0, cntAddr := 0, cntNoise := 0, outLevel := s.cfg.outReset
        actValid := false, actIndex := 0#2, actLine := 0#2, actValue := false }

/-- With a legal configuration, rst = 0 and dur_valid = 0 on the pins, the step answers the next state
with act_valid = 0 and every other register unchanged, whatever dur is. The same holds when no pin
sample is listed, which is the model's choice (assumption log 3). (10_state.md section 1, R30;
assumption log 3) -/
def Obligations.EdgeWithoutDurationHoldsState : Prop :=
  (∀ (s : State) (p : Pins) (ps : List Pins),
    s.cfg.Legal → s.input = p :: ps → p.rst = false → p.durValid = false →
    step s = .next { s with input := ps, actValid := false }) ∧
  (∀ s : State, s.cfg.Legal → s.input = [] → step s = .next { s with actValid := false })

/-- In a state whose configuration is illegal the step is refused by name, whatever the pins are.
(00_scope.md section 4, R13; 93_implementation_defined.md I13; assumption log 6) -/
def Obligations.IllegalConfigurationHasNoRun : Prop :=
  ∀ s : State, ¬ s.cfg.Legal → step s = .refused .illegalConfiguration

/-- With a legal configuration, the step answers a next state exactly when the coming pin sample, if
it brings a duration, brings one of at most DUR_W bits. That a wider number is refused is the
model's choice (assumption log 5). (60_exceptions.md section 1, R260; 43_packet_decoder.md section
3, R176; 10_state.md section 2, R31, R32; assumption log 5) -/
def Obligations.NoInputStopsTheCore : Prop :=
  ∀ s : State, s.cfg.Legal →
    ((∃ t, step s = .next t) ↔
      ∀ p ps, s.input = p :: ps → p.rst = false → p.durValid = true → p.dur < 2 ^ s.cfg.durW)

/-- Every register of State.reset has the value that R49 gives; out_level has the OUT_RESET of the
configuration State.reset carries, whose choice is the model's (assumption log 2). (10_state.md
section 3, R49; 93_implementation_defined.md I8; assumption log 2) -/
def Obligations.ResetRegisterValues : Prop :=
  State.reset.st = .sync ∧ State.reset.pre = 0#4 ∧ State.reset.idx = 0#3 ∧ State.reset.retry = 0 ∧
    State.reset.addr = 0x00#8 ∧ State.reset.cmd = 0x00#8 ∧ State.reset.chk = 0x00#8 ∧
    State.reset.cntChk = 0 ∧ State.reset.cntCmd = 0 ∧ State.reset.cntAddr = 0 ∧
    State.reset.cntNoise = 0 ∧ State.reset.outLevel = State.reset.cfg.outReset ∧
    State.reset.actValid = false ∧ State.reset.actIndex = 0#2 ∧ State.reset.actLine = 0#2 ∧
    State.reset.actValue = false

/-- The reset state of every legal configuration, with any pin samples the port can carry, meets the
invariant Inv; and so does State.reset. (10_state.md section 3, R48, R49) -/
def Obligations.EveryResetStateMeetsTheInvariant : Prop :=
  (∀ (cfg : Config) (input : List Pins), cfg.Legal → (∀ p ∈ input, p.Fits cfg) →
    Inv (State.resetWith cfg input)) ∧ Inv State.reset

/-- From every state that meets Inv, a step that answers a next state gives a state that meets Inv: st
is a named code, pre is 0 outside SYNC, idx is 0 outside the byte states, retry is below the cap,
no counter is above its maximum, past the filter the address byte carries the marker and the base
address, and a strobe cycle's act_line and out_level agree with OUT_MAP and act_value.
(10_state.md section 3, R48, R45; 45_output_mapper.md sections 1 and 2, R220, R221, R223;
10_state.md section 2, R33) -/
def Obligations.StepKeepsInvariant : Prop :=
  ∀ s t : State, Inv s → step s = .next t → Inv t

/-- From every state, a step that answers a next state leaves the configuration as it was, reset edges
included. (00_scope.md section 4, R11; 70_reset_and_hazards.md section 3, R300; assumption log 1) -/
def Obligations.ConfigurationNeverChanges : Prop :=
  ∀ s t : State, step s = .next t → t.cfg = s.cfg

/-- From every state, a step that answers a next state leaves the coming pin samples without the
first. The list is the model's (assumption log 3). (10_state.md sections 1 and 2, R30, R31;
assumption log 3) -/
def Obligations.EdgeUsesOneSample : Prop :=
  ∀ s t : State, step s = .next t → t.input = s.input.tail

/-- From every state whose counters are in their range, a step without rst = 1 leaves each of the four
counters at or above its value. (10_state.md section 3, R45; 20_memory.md section 5, R70) -/
def Obligations.CountersNeverDecrease : Prop :=
  ∀ s t : State, CountersInRange s → (∀ p ps, s.input = p :: ps → p.rst = false) → step s = .next t →
    s.cntChk ≤ t.cntChk ∧ s.cntCmd ≤ t.cntCmd ∧ s.cntAddr ≤ t.cntAddr ∧ s.cntNoise ≤ t.cntNoise

/-- For every duration the step takes: cnt_noise counts 1 exactly on an Invalid; cnt_addr 1 exactly on
a One in IB1; cnt_cmd 1 exactly on a One in IB2; cnt_chk, on a valid bit in TERM, the saturating
sum with 1 for a mismatch and 1 for a Zero; otherwise each is unchanged. (10_state.md section 3,
R45; 44_checksum_validator.md, R202; 43_packet_decoder.md section 2, R169, R171, R175) -/
def Obligations.CountersCountTheirEvents : Prop :=
  ∀ (s t : State) (d : Nat) (ps : List Pins), s.input = measurement d :: ps → step s = .next t →
    t.cntNoise = (if classify s.cfg d = .invalid then min (s.cntNoise + 1) (2 ^ s.cfg.cntW - 1)
      else s.cntNoise) ∧
    t.cntAddr = (if s.st = .ib1 ∧ classify s.cfg d = .one
      then min (s.cntAddr + 1) (2 ^ s.cfg.cntW - 1) else s.cntAddr) ∧
    t.cntCmd = (if s.st = .ib2 ∧ classify s.cfg d = .one
      then min (s.cntCmd + 1) (2 ^ s.cfg.cntW - 1) else s.cntCmd) ∧
    t.cntChk = (if s.st = .term ∧ classify s.cfg d ≠ .invalid
      then min (s.cntChk + ((if s.chk = s.addr ^^^ s.cmd then 0 else 1) +
        (if classify s.cfg d = .zero then 1 else 0))) (2 ^ s.cfg.cntW - 1) else s.cntChk)

/-- From every state, a step without rst = 1: if it leaves act_valid = 1, the state was TERM with a
good checksum, act_index and act_value are cmd[2:1] and cmd[0], act_line is OUT_MAP[act_index],
and out_level differs at most in that line, which has the value; if it leaves act_valid = 0,
out_level and the action registers are unchanged. (45_output_mapper.md sections 2 and 3, R222,
R223, R234; 10_state.md section 2, R33 to R35) -/
def Obligations.OutputsChangeOnlyByAction : Prop :=
  ∀ s t : State, (∀ p ps, s.input = p :: ps → p.rst = false) → step s = .next t →
    (t.actValid = true →
      s.st = .term ∧ s.chk = s.addr ^^^ s.cmd ∧
      t.actIndex = s.cmd.extractLsb' 1 2 ∧ t.actValue = s.cmd.getLsbD 0 ∧
      t.actLine = s.cfg.outMap.line t.actIndex ∧
      ∀ n < 4, t.outLevel.getLsbD n =
        if n = t.actLine.toNat then t.actValue else s.outLevel.getLsbD n) ∧
    (t.actValid = false →
      t.outLevel = s.outLevel ∧ t.actIndex = s.actIndex ∧ t.actLine = s.actLine ∧
      t.actValue = s.actValue)

/-- From every state, a step without rst = 1 changes addr only in ADDR, cmd only in CMD and chk only
in CHK. (10_state.md section 3, R42 to R44) -/
def Obligations.BytesWrittenOnlyInTheirState : Prop :=
  ∀ s t : State, (∀ p ps, s.input = p :: ps → p.rst = false) → step s = .next t →
    (s.st ≠ .addr → t.addr = s.addr) ∧ (s.st ≠ .cmd → t.cmd = s.cmd) ∧ (s.st ≠ .chk → t.chk = s.chk)

/-- From every state other than SYNC and the unused code, a step that answers a next state leaves pre
unchanged or leaves st = SYNC with pre = 0. (41_frame_synchronizer.md, R126, R128) -/
def Obligations.PreambleUntouchedInsidePacket : Prop :=
  ∀ s t : State, s.st ≠ .sync → s.st ≠ .unused → step s = .next t →
    t.pre = s.pre ∨ (t.st = .sync ∧ t.pre = 0#4)

/-- From every state other than SYNC and the unused code, which acts as SYNC, a step that leaves st =
SYNC leaves pre = 0. (41_frame_synchronizer.md, R126; R164) -/
def Obligations.EntryToSyncClearsPreamble : Prop :=
  ∀ s t : State, s.st ≠ .sync → s.st ≠ .unused → step s = .next t → t.st = .sync → t.pre = 0#4

/-- For every valid bit the step takes, the new st is a successor of the old in the table; a byte
state is left exactly when idx is 7, idx then being 0, and otherwise idx goes up by 1. The unused
code takes the successors of SYNC (R164); that it is not kept after a bit is the model's reading
(assumption log 7). (43_packet_decoder.md section 1, R163, R165; R164; 42_byte_assembler.md, R141;
assumption log 7) -/
def Obligations.DecoderStateMovesByTheTable : Prop :=
  ∀ (s t : State) (d : Nat) (b : Bit) (ps : List Pins),
    s.input = measurement d :: ps → Spells s.cfg d b → step s = .next t →
    t.st ∈ nextStates s.st ∧
    (s.st.inByte = true → (t.st = s.st ↔ s.idx ≠ 7#3) ∧
      t.idx = if s.idx = 7#3 then 0#3 else s.idx + 1#3)

/-- From every state with retry + 1 below the cap and two samples bringing an Invalid and then a bit,
two steps give the state that the bit alone would give, with cnt_noise counted once.
(40_bit_classifier.md section 2, R104, R106; 41_frame_synchronizer.md, R125; 42_byte_assembler.md,
R146) -/
def Obligations.NoiseIsAbsorbed : Prop :=
  ∀ (s t : State) (d e : Nat) (b : Bit) (ps : List Pins),
    s.cfg.Legal → s.retry + 1 < s.cfg.retryCap →
    s.input = measurement d :: measurement e :: ps → SpellsNoise s.cfg d → Spells s.cfg e b →
    step { s with input := measurement e :: ps } = .next t →
    runEdges 2 s = .next { t with cntNoise := min (s.cntNoise + 1) (2 ^ s.cfg.cntW - 1) }

/-- From every state, n >= 1 consecutive Invalid durations: while retry + n is below the cap, they add
n to retry and to cnt_noise, saturating, and change nothing else but the strobe; when retry + n is
the cap, the last of them also aborts, st = SYNC and pre, idx and retry 0. (40_bit_classifier.md
section 2, R104, R105; 43_packet_decoder.md section 1, R166) -/
def Obligations.GiveUpAtTheCap : Prop :=
  ∀ (s : State) (ds : List Nat) (ps : List Pins),
    s.cfg.Legal → ds ≠ [] → s.input = measurements ds ++ ps → (∀ d ∈ ds, SpellsNoise s.cfg d) →
    (s.retry + ds.length < s.cfg.retryCap →
      runEdges ds.length s = .next { s with
        input := ps, actValid := false, retry := s.retry + ds.length
        cntNoise := min (s.cntNoise + ds.length) (2 ^ s.cfg.cntW - 1) }) ∧
    (s.retry + ds.length = s.cfg.retryCap →
      runEdges ds.length s = .next { s with
        input := ps, actValid := false, retry := 0, st := .sync, pre := 0#4, idx := 0#3
        cntNoise := min (s.cntNoise + ds.length) (2 ^ s.cfg.cntW - 1) })

/-- From SYNC with any count pre, p ones and then a zero: the core ends in ADDR with idx = 0 exactly
if 10 <= pre + p <= 14, the unbounded count, and in SYNC otherwise; pre is 0 and nothing else
changes but retry, cleared, and the strobe, low. So the saturation of pre is exact and ones left
over from a discarded packet count. (41_frame_synchronizer.md, R121 to R124, R127, R129;
70_reset_and_hazards.md section 3, R303, R304) -/
def Obligations.PreambleRunDecidesFrameStart : Prop :=
  ∀ (s : State) (ds : List Nat) (z : Nat) (ps : List Pins),
    s.cfg.Legal → s.st = .sync → s.input = measurements (ds ++ [z]) ++ ps →
    SpellsBits s.cfg ds (List.replicate ds.length true) → Spells s.cfg z false →
    runEdges (ds.length + 1) s = .next { s with
      input := ps, actValid := false, retry := 0, pre := 0#4
      st := if 10 ≤ s.pre.toNat + ds.length ∧ s.pre.toNat + ds.length ≤ 14 then .addr else .sync
      idx := if 10 ≤ s.pre.toNat + ds.length ∧ s.pre.toNat + ds.length ≤ 14 then 0#3 else s.idx }

/-- From CMD, and from CHK, with idx = 0, eight durations that spell the bits of a byte, bit 7 first,
leave that byte in the register whatever it held before, idx = 0 and st = IB2, or TERM; every
other register is unchanged but retry, cleared, and the strobe, low. (42_byte_assembler.md, R140,
R141, R143, R144; 20_memory.md section 2, R64) -/
def Obligations.EightBitsFillCmdAndChk : Prop :=
  ∀ (s : State) (ds : List Nat) (ps : List Pins) (b : Byte),
    s.cfg.Legal → s.idx = 0#3 → s.input = measurements ds ++ ps → SpellsBits s.cfg ds (wireBits b) →
    (s.st = .cmd → runEdges 8 s = .next { s with
      input := ps, actValid := false, retry := 0, cmd := b, idx := 0#3, st := .ib2 }) ∧
    (s.st = .chk → runEdges 8 s = .next { s with
      input := ps, actValid := false, retry := 0, chk := b, idx := 0#3, st := .term })

/-- From ADDR with idx = 0, eight durations that spell the bits of a byte, bit 7 first, leave that
byte in addr and idx = 0, and then st = IB1 if its marker is 10 and its address the base address,
and st = SYNC with pre = 0 otherwise; every other register, all counters among them, is unchanged
but retry, cleared, and the strobe, low. (45_output_mapper.md section 1, R220, R221;
42_byte_assembler.md, R140 to R142; 43_packet_decoder.md section 3, R178) -/
def Obligations.AddressByteIsFilteredWhole : Prop :=
  ∀ (s : State) (ds : List Nat) (ps : List Pins) (a : Byte),
    s.cfg.Legal → s.st = .addr → s.idx = 0#3 →
    s.input = measurements ds ++ ps → SpellsBits s.cfg ds (wireBits a) →
    (a.extractLsb' 6 2 = 0b10#2 ∧ (a.extractLsb' 0 6).toNat = s.cfg.baseAddr →
      runEdges 8 s = .next { s with
        input := ps, actValid := false, retry := 0, addr := a, idx := 0#3, st := .ib1 }) ∧
    (¬(a.extractLsb' 6 2 = 0b10#2 ∧ (a.extractLsb' 0 6).toNat = s.cfg.baseAddr) →
      runEdges 8 s = .next { s with
        input := ps, actValid := false, retry := 0, addr := a, idx := 0#3, st := .sync, pre := 0#4 })

/-- From ADDR with idx = 0, 27 durations that spell a frame body whose address byte passes the filter:
after 27 steps the three registers hold the three bytes, s1 = 1 has counted in cnt_addr, s2 = 1 in
cnt_cmd, t = 0 and a mismatch in cnt_chk, the core is in SYNC with pre, idx and retry 0, and the
action of cmd[2:1] and cmd[0] has been dispatched exactly if the checksum is addr XOR cmd; every
other register is unchanged. (30_encoding.md section 1, R83, R92; 43_packet_decoder.md section 3,
R177, R178; 45_output_mapper.md section 2, R222, R223; 44_checksum_validator.md, R202, R204, R205) -/
def Obligations.FrameBodyRunsToItsEnd : Prop :=
  ∀ (s : State) (ds : List Nat) (ps : List Pins) (a : Byte) (s1 : Bit) (c : Byte) (s2 : Bit)
    (k : Byte) (t : Bit),
    s.cfg.Legal → s.st = .addr → s.idx = 0#3 → passesFilter s.cfg a = true →
    s.input = measurements ds ++ ps → SpellsBits s.cfg ds (frameWireBits a s1 c s2 k t) →
    (k = a ^^^ c → runEdges 27 s = .next { s with
      input := ps, retry := 0, addr := a, cmd := c, chk := k, st := .sync, pre := 0#4, idx := 0#3
      cntAddr := if s1 then min (s.cntAddr + 1) (2 ^ s.cfg.cntW - 1) else s.cntAddr
      cntCmd := if s2 then min (s.cntCmd + 1) (2 ^ s.cfg.cntW - 1) else s.cntCmd
      cntChk := min (s.cntChk + if t then 0 else 1) (2 ^ s.cfg.cntW - 1)
      outLevel := setLevel s.outLevel (s.cfg.outMap.line (c.extractLsb' 1 2)) (c.getLsbD 0)
      actValid := true, actIndex := c.extractLsb' 1 2
      actLine := s.cfg.outMap.line (c.extractLsb' 1 2), actValue := c.getLsbD 0 }) ∧
    (k ≠ a ^^^ c → runEdges 27 s = .next { s with
      input := ps, retry := 0, addr := a, cmd := c, chk := k, st := .sync, pre := 0#4, idx := 0#3
      cntAddr := if s1 then min (s.cntAddr + 1) (2 ^ s.cfg.cntW - 1) else s.cntAddr
      cntCmd := if s2 then min (s.cntCmd + 1) (2 ^ s.cfg.cntW - 1) else s.cntCmd
      cntChk := min (s.cntChk + (1 + if t then 0 else 1)) (2 ^ s.cfg.cntW - 1)
      actValid := false })

/-- From every state, if a step emits an action, then after any 1 to 37 further edges, whatever the
pins bring, act_valid is 0. (70_reset_and_hazards.md section 3, R308; 90_conflicts.md C14) -/
def Obligations.ActionsAreAtLeast38EdgesApart : Prop :=
  ∀ (s t u : State) (n : Nat), step s = .next t → t.actValid = true → 1 ≤ n → n ≤ 37 →
    runEdges n t = .next u → u.actValid = false

/-- Take a state that meets Inv and one that differs from it only in byte-register bits that were not
received in the current packet attempt. Both step to a next state, the two next states again
differ only so, and their action ports are equal: every output, counter and other register is the
same at every later edge. (42_byte_assembler.md, R147; 10_state.md section 3, R49, R51;
93_implementation_defined.md I12) -/
def Obligations.StaleByteBitsReachNoOutput : Prop :=
  ∀ s u : State, Inv s → SameButStaleBytes s u →
    ∃ s' u', step s = .next s' ∧ step u = .next u' ∧ SameButStaleBytes s' u' ∧
      actionPort s' = actionPort u' ∧ s'.outLevel = u'.outLevel

/-- With a valid bit on the pins, the step from the unused code 0b111 is the step from the same state
in SYNC. That st is then SYNC and not 0b111 is the model's reading (assumption log 7). (R164;
93_implementation_defined.md I9; assumption log 7) -/
def Obligations.UnusedCodeActsAsSync : Prop :=
  ∀ (s : State) (d : Nat) (b : Bit) (ps : List Pins),
    s.cfg.Legal → s.st = .unused → s.input = measurement d :: ps → Spells s.cfg d b →
    step s = step { s with st := .sync }

/-- For every state, function and value, dispatching the same action a second time gives the state the
first gave. (45_output_mapper.md section 2, R224; 20_memory.md section 4, R69) -/
def Obligations.RepeatedActionChangesNothingMore : Prop :=
  ∀ (s : State) (fn : BitVec 2) (v : Bit),
    dispatchAction fn v (dispatchAction fn v s) = dispatchAction fn v s

/-- For every legal configuration and every physical line there is one function number that OUT_MAP
sends to it, and no other. (00_scope.md section 4, R10; 45_output_mapper.md section 3, R233) -/
def Obligations.OutMapReachesEachLineOnce : Prop :=
  ∀ (cfg : Config) (ln : BitVec 2), cfg.Legal →
    ∃ fn, cfg.outMap.line fn = ln ∧ ∀ gn, cfg.outMap.line gn = ln → gn = fn

/-- For every legal configuration the address byte with marker 10 and address 0 does not pass the
filter. (20_memory.md section 1, R61; 45_output_mapper.md section 1, R221) -/
def Obligations.AddressZeroNeverPasses : Prop :=
  ∀ cfg : Config, cfg.Legal → passesFilter cfg 0x80#8 = false

/-- For every legal configuration, every preamble count and every instruction that is well-formed
under them, its block decodes its encoding to it, every operand at every value the encoding
admits. (30_encoding.md sections 1 to 4, R80 to R91; spec/opcode_table.json) -/
def Obligations.DecodeOfEncode : Prop :=
  ∀ (cfg : Config) (pre : BitVec 4) (i : Instr), cfg.Legal → WellFormed cfg pre i →
    decode cfg pre (encode i) = .ok i

/-- For every configuration, preamble count and symbol, if the symbol decodes to an instruction, the
instruction's encoding is that symbol: no bit of a symbol is dropped. (30_encoding.md sections 1
to 4, R80 to R91; spec/opcode_table.json) -/
def Obligations.EncodeOfDecode : Prop :=
  ∀ (cfg : Config) (pre : BitVec 4) (sym : Symbol) (i : Instr),
    decode cfg pre sym = .ok i → encode i = sym

/-- For every configuration, preamble count and symbol, an instruction that the symbol decodes to is
well-formed under them. (30_encoding.md sections 1 to 4, R80 to R91; spec/opcode_table.json,
column condition) -/
def Obligations.DecodeGivesWellFormed : Prop :=
  ∀ (cfg : Config) (pre : BitVec 4) (sym : Symbol) (i : Instr),
    decode cfg pre sym = .ok i → WellFormed cfg pre i

/-- Under CFG0 (assumption log 2): 100 ticks is PULSE.ZERO, 55 PULSE.ONE, 54 PULSE.INVALID; the bit 1
is SYNC.ONE, the bit 0 after 10 ones SYNC.START and after 9 SYNC.IDLE; 0x42, 0xC2 and 0x87 are the
three discards; the frame body of V1 is SET.O1.ON with a = 2, x = 10000, k = 0x01, t = 1, and
CHECKSUM with its three bytes. (30_encoding.md sections 1 to 4, R80 to R91; 95_test_vectors.md V1,
V5, V7, V60) -/
def Obligations.WrittenOutWordsDecode : Prop :=
  decode Config.cfg0 0#4 (.duration 100) = .ok (.pulseZero 100) ∧
    decode Config.cfg0 0#4 (.duration 55) = .ok (.pulseOne 55) ∧
    decode Config.cfg0 0#4 (.duration 54) = .ok (.pulseInvalid 54) ∧
    decode Config.cfg0 0#4 (.syncBit true) = .ok .syncOne ∧
    decode Config.cfg0 10#4 (.syncBit false) = .ok .syncStart ∧
    decode Config.cfg0 9#4 (.syncBit false) = .ok .syncIdle ∧
    decode Config.cfg0 0#4 (.addressByte 0b01000010#8) = .ok (.discardNotacc0 0b1000010#7) ∧
    decode Config.cfg0 0#4 (.addressByte 0b11000010#8) = .ok (.discardNotacc11 0b000010#6) ∧
    decode Config.cfg0 0#4 (.addressByte 0b10000111#8) = .ok (.discardOtheraddr 0b000111#6) ∧
    decode Config.cfg0 0#4 (.mappedFrame 0b100000100100000110000000011#27) =
      .ok (.setO1On 0b000010#6 false 0b10000#5 false 0x01#8 true) ∧
    decode Config.cfg0 0#4 (.checkedFrame 0b100000100100000110000000011#27) =
      .ok (.checksum 0x82#8 false 0x83#8 false 0x01#8 true)

/-- For every legal configuration RETRY_W is at least 1, a retry count below the cap needs no more
bits, and no smaller width w >= 1 has 2^w >= RETRY_CAP. (00_scope.md section 4, parameter RETRY_W;
10_state.md section 3, R41, R48) -/
def Obligations.RetryFitsItsRegister : Prop :=
  ∀ cfg : Config, cfg.Legal →
    1 ≤ cfg.retryWidth ∧ (∀ n < cfg.retryCap, n < 2 ^ cfg.retryWidth) ∧
      ∀ w, 1 ≤ w → cfg.retryCap ≤ 2 ^ w → cfg.retryWidth ≤ w
end

