-- ==== Sys2Proof/Laws/Decode.lean ====
section
/-! SUPPORT. The fields of a frame body and of the bytes built by the encoder. -/

namespace Sys2Proof

@[simp] theorem frameAddr_frameBody (a : Byte) (s1 : Bit) (c : Byte) (s2 : Bit) (k : Byte) (t : Bit) :
    frameAddr (frameBody a s1 c s2 k t) = a := by
  refine BitVec.eq_of_getLsbD_eq fun i hi => ?_
  simp only [frameAddr, frameBody, BitVec.getLsbD_extractLsb', BitVec.getLsbD_append]
  interval_cases i <;> simp

@[simp] theorem frameS1_frameBody (a : Byte) (s1 : Bit) (c : Byte) (s2 : Bit) (k : Byte) (t : Bit) :
    frameS1 (frameBody a s1 c s2 k t) = s1 := by
  simp only [frameS1, frameBody, BitVec.getLsbD_append]
  simp

@[simp] theorem frameCmd_frameBody (a : Byte) (s1 : Bit) (c : Byte) (s2 : Bit) (k : Byte) (t : Bit) :
    frameCmd (frameBody a s1 c s2 k t) = c := by
  refine BitVec.eq_of_getLsbD_eq fun i hi => ?_
  simp only [frameCmd, frameBody, BitVec.getLsbD_extractLsb', BitVec.getLsbD_append]
  interval_cases i <;> simp

@[simp] theorem frameS2_frameBody (a : Byte) (s1 : Bit) (c : Byte) (s2 : Bit) (k : Byte) (t : Bit) :
    frameS2 (frameBody a s1 c s2 k t) = s2 := by
  simp only [frameS2, frameBody, BitVec.getLsbD_append]
  simp

@[simp] theorem frameChk_frameBody (a : Byte) (s1 : Bit) (c : Byte) (s2 : Bit) (k : Byte) (t : Bit) :
    frameChk (frameBody a s1 c s2 k t) = k := by
  refine BitVec.eq_of_getLsbD_eq fun i hi => ?_
  simp only [frameChk, frameBody, BitVec.getLsbD_extractLsb', BitVec.getLsbD_append]
  interval_cases i <;> simp

@[simp] theorem frameT_frameBody (a : Byte) (s1 : Bit) (c : Byte) (s2 : Bit) (k : Byte) (t : Bit) :
    frameT (frameBody a s1 c s2 k t) = t := by
  simp only [frameT, frameBody, BitVec.getLsbD_append]
  simp

/-- A frame body is built back from its six fields: no bit of it is outside them. -/
theorem frameBody_fields (f : FrameBody) :
    frameBody (frameAddr f) (frameS1 f) (frameCmd f) (frameS2 f) (frameChk f) (frameT f) = f := by
  refine BitVec.eq_of_getLsbD_eq fun i hi => ?_
  simp only [frameBody, frameAddr, frameS1, frameCmd, frameS2, frameChk, frameT,
    BitVec.getLsbD_append, BitVec.getLsbD_extractLsb']
  interval_cases i <;> simp

/-- A sub-field of the address byte, read from the frame. -/
theorem extract_of_frameAddr (f : FrameBody) (i n : Nat) (h : i + n ≤ 8) :
    f.extractLsb' (19 + i) n = (frameAddr f).extractLsb' i n := by
  refine BitVec.eq_of_getLsbD_eq fun j hj => ?_
  simp only [frameAddr, BitVec.getLsbD_extractLsb']
  have : i + j < 8 := by omega
  simp [this, Nat.add_assoc]

/-- A sub-field of the command byte, read from the frame. -/
theorem extract_of_frameCmd (f : FrameBody) (i n : Nat) (h : i + n ≤ 8) :
    f.extractLsb' (10 + i) n = (frameCmd f).extractLsb' i n := by
  refine BitVec.eq_of_getLsbD_eq fun j hj => ?_
  simp only [frameCmd, BitVec.getLsbD_extractLsb']
  have : i + j < 8 := by omega
  simp [this, Nat.add_assoc]

theorem commandByte_row (x : BitVec 5) (row : BitVec 3) : (commandByte x row).extractLsb' 0 3 = row := by
  refine BitVec.eq_of_getLsbD_eq fun i hi => ?_
  simp only [commandByte, BitVec.getLsbD_extractLsb', BitVec.getLsbD_append]
  simp [hi]

theorem commandByte_high (x : BitVec 5) (row : BitVec 3) : (commandByte x row).extractLsb' 3 5 = x := by
  refine BitVec.eq_of_getLsbD_eq fun i hi => ?_
  simp only [commandByte, BitVec.getLsbD_extractLsb', BitVec.getLsbD_append]
  simp [hi]

theorem commandByte_fields (c : Byte) : commandByte (c.extractLsb' 3 5) (c.extractLsb' 0 3) = c := by
  refine BitVec.eq_of_getLsbD_eq fun i hi => ?_
  simp only [commandByte, BitVec.getLsbD_extractLsb', BitVec.getLsbD_append]
  interval_cases i <;> simp

theorem accessoryByte_low (a : BitVec 6) : (accessoryByte a).extractLsb' 0 6 = a := by
  refine BitVec.eq_of_getLsbD_eq fun i hi => ?_
  simp only [accessoryByte, BitVec.getLsbD_extractLsb', BitVec.getLsbD_append]
  simp [hi]

theorem accessoryByte_marker (a : BitVec 6) : (accessoryByte a).extractLsb' 6 2 = 0b10#2 := by
  refine BitVec.eq_of_getLsbD_eq fun i hi => ?_
  simp only [accessoryByte, BitVec.getLsbD_extractLsb', BitVec.getLsbD_append]
  interval_cases i <;> simp

theorem bitOfDuration_class (cfg : Config) (d : Nat) :
    (classify cfg d = .zero ∧ cfg.tZero ≤ d) ∨
      (classify cfg d = .one ∧ d < cfg.tZero ∧ cfg.tOne ≤ d) ∨
      (classify cfg d = .invalid ∧ d < cfg.tZero ∧ d < cfg.tOne) := by
  unfold classify
  split
  · exact .inl ⟨rfl, ‹_›⟩
  · split
    · exact .inr (.inl ⟨rfl, Nat.lt_of_not_le ‹_›, ‹_›⟩)
    · exact .inr (.inr ⟨rfl, Nat.lt_of_not_le ‹_›, Nat.lt_of_not_le ‹_›⟩)

end Sys2Proof
end

