-- ==== Sys2Proof/Laws/State.lean ====
section
/-! SUPPORT. What each named update of State does to each field, true by `rfl`, so that no later proof
unfolds a record update. -/

namespace Sys2Proof.Machine

/-! `beginEdge` -/

@[simp] theorem beginEdge_cfg (s : State) : (beginEdge s).cfg = s.cfg := rfl
@[simp] theorem beginEdge_input (s : State) : (beginEdge s).input = s.input.tail := rfl
@[simp] theorem beginEdge_st (s : State) : (beginEdge s).st = s.st := rfl
@[simp] theorem beginEdge_pre (s : State) : (beginEdge s).pre = s.pre := rfl
@[simp] theorem beginEdge_idx (s : State) : (beginEdge s).idx = s.idx := rfl
@[simp] theorem beginEdge_retry (s : State) : (beginEdge s).retry = s.retry := rfl
@[simp] theorem beginEdge_addr (s : State) : (beginEdge s).addr = s.addr := rfl
@[simp] theorem beginEdge_cmd (s : State) : (beginEdge s).cmd = s.cmd := rfl
@[simp] theorem beginEdge_chk (s : State) : (beginEdge s).chk = s.chk := rfl
@[simp] theorem beginEdge_cntChk (s : State) : (beginEdge s).cntChk = s.cntChk := rfl
@[simp] theorem beginEdge_cntCmd (s : State) : (beginEdge s).cntCmd = s.cntCmd := rfl
@[simp] theorem beginEdge_cntAddr (s : State) : (beginEdge s).cntAddr = s.cntAddr := rfl
@[simp] theorem beginEdge_cntNoise (s : State) : (beginEdge s).cntNoise = s.cntNoise := rfl
@[simp] theorem beginEdge_outLevel (s : State) : (beginEdge s).outLevel = s.outLevel := rfl
@[simp] theorem beginEdge_actValid (s : State) : (beginEdge s).actValid = false := rfl
@[simp] theorem beginEdge_actIndex (s : State) : (beginEdge s).actIndex = s.actIndex := rfl
@[simp] theorem beginEdge_actLine (s : State) : (beginEdge s).actLine = s.actLine := rfl
@[simp] theorem beginEdge_actValue (s : State) : (beginEdge s).actValue = s.actValue := rfl

/-! `bitFetched` -/

@[simp] theorem bitFetched_cfg (s : State) : (bitFetched s).cfg = s.cfg := rfl
@[simp] theorem bitFetched_input (s : State) : (bitFetched s).input = s.input.tail := rfl
@[simp] theorem bitFetched_st (s : State) : (bitFetched s).st = s.st := rfl
@[simp] theorem bitFetched_pre (s : State) : (bitFetched s).pre = s.pre := rfl
@[simp] theorem bitFetched_idx (s : State) : (bitFetched s).idx = s.idx := rfl
@[simp] theorem bitFetched_retry (s : State) : (bitFetched s).retry = 0 := rfl
@[simp] theorem bitFetched_addr (s : State) : (bitFetched s).addr = s.addr := rfl
@[simp] theorem bitFetched_cmd (s : State) : (bitFetched s).cmd = s.cmd := rfl
@[simp] theorem bitFetched_chk (s : State) : (bitFetched s).chk = s.chk := rfl
@[simp] theorem bitFetched_cntChk (s : State) : (bitFetched s).cntChk = s.cntChk := rfl
@[simp] theorem bitFetched_cntCmd (s : State) : (bitFetched s).cntCmd = s.cntCmd := rfl
@[simp] theorem bitFetched_cntAddr (s : State) : (bitFetched s).cntAddr = s.cntAddr := rfl
@[simp] theorem bitFetched_cntNoise (s : State) : (bitFetched s).cntNoise = s.cntNoise := rfl
@[simp] theorem bitFetched_outLevel (s : State) : (bitFetched s).outLevel = s.outLevel := rfl
@[simp] theorem bitFetched_actValid (s : State) : (bitFetched s).actValid = false := rfl
@[simp] theorem bitFetched_actIndex (s : State) : (bitFetched s).actIndex = s.actIndex := rfl
@[simp] theorem bitFetched_actLine (s : State) : (bitFetched s).actLine = s.actLine := rfl
@[simp] theorem bitFetched_actValue (s : State) : (bitFetched s).actValue = s.actValue := rfl

/-! `countNoise` -/

@[simp] theorem countNoise_cfg (s : State) : (countNoise s).cfg = s.cfg := rfl
@[simp] theorem countNoise_input (s : State) : (countNoise s).input = s.input := rfl
@[simp] theorem countNoise_st (s : State) : (countNoise s).st = s.st := rfl
@[simp] theorem countNoise_pre (s : State) : (countNoise s).pre = s.pre := rfl
@[simp] theorem countNoise_idx (s : State) : (countNoise s).idx = s.idx := rfl
@[simp] theorem countNoise_retry (s : State) : (countNoise s).retry = s.retry := rfl
@[simp] theorem countNoise_addr (s : State) : (countNoise s).addr = s.addr := rfl
@[simp] theorem countNoise_cmd (s : State) : (countNoise s).cmd = s.cmd := rfl
@[simp] theorem countNoise_chk (s : State) : (countNoise s).chk = s.chk := rfl
@[simp] theorem countNoise_cntChk (s : State) : (countNoise s).cntChk = s.cntChk := rfl
@[simp] theorem countNoise_cntCmd (s : State) : (countNoise s).cntCmd = s.cntCmd := rfl
@[simp] theorem countNoise_cntAddr (s : State) : (countNoise s).cntAddr = s.cntAddr := rfl
@[simp] theorem countNoise_cntNoise (s : State) :
    (countNoise s).cntNoise = satAdd s.cfg.cntW s.cntNoise 1 := rfl
@[simp] theorem countNoise_outLevel (s : State) : (countNoise s).outLevel = s.outLevel := rfl
@[simp] theorem countNoise_actValid (s : State) : (countNoise s).actValid = s.actValid := rfl
@[simp] theorem countNoise_actIndex (s : State) : (countNoise s).actIndex = s.actIndex := rfl
@[simp] theorem countNoise_actLine (s : State) : (countNoise s).actLine = s.actLine := rfl
@[simp] theorem countNoise_actValue (s : State) : (countNoise s).actValue = s.actValue := rfl

/-! `countAddr` -/

@[simp] theorem countAddr_cfg (s : State) : (countAddr s).cfg = s.cfg := rfl
@[simp] theorem countAddr_input (s : State) : (countAddr s).input = s.input := rfl
@[simp] theorem countAddr_st (s : State) : (countAddr s).st = s.st := rfl
@[simp] theorem countAddr_pre (s : State) : (countAddr s).pre = s.pre := rfl
@[simp] theorem countAddr_idx (s : State) : (countAddr s).idx = s.idx := rfl
@[simp] theorem countAddr_retry (s : State) : (countAddr s).retry = s.retry := rfl
@[simp] theorem countAddr_addr (s : State) : (countAddr s).addr = s.addr := rfl
@[simp] theorem countAddr_cmd (s : State) : (countAddr s).cmd = s.cmd := rfl
@[simp] theorem countAddr_chk (s : State) : (countAddr s).chk = s.chk := rfl
@[simp] theorem countAddr_cntChk (s : State) : (countAddr s).cntChk = s.cntChk := rfl
@[simp] theorem countAddr_cntCmd (s : State) : (countAddr s).cntCmd = s.cntCmd := rfl
@[simp] theorem countAddr_cntAddr (s : State) :
    (countAddr s).cntAddr = satAdd s.cfg.cntW s.cntAddr 1 := rfl
@[simp] theorem countAddr_cntNoise (s : State) : (countAddr s).cntNoise = s.cntNoise := rfl
@[simp] theorem countAddr_outLevel (s : State) : (countAddr s).outLevel = s.outLevel := rfl
@[simp] theorem countAddr_actValid (s : State) : (countAddr s).actValid = s.actValid := rfl
@[simp] theorem countAddr_actIndex (s : State) : (countAddr s).actIndex = s.actIndex := rfl
@[simp] theorem countAddr_actLine (s : State) : (countAddr s).actLine = s.actLine := rfl
@[simp] theorem countAddr_actValue (s : State) : (countAddr s).actValue = s.actValue := rfl

/-! `countCmd` -/

@[simp] theorem countCmd_cfg (s : State) : (countCmd s).cfg = s.cfg := rfl
@[simp] theorem countCmd_input (s : State) : (countCmd s).input = s.input := rfl
@[simp] theorem countCmd_st (s : State) : (countCmd s).st = s.st := rfl
@[simp] theorem countCmd_pre (s : State) : (countCmd s).pre = s.pre := rfl
@[simp] theorem countCmd_idx (s : State) : (countCmd s).idx = s.idx := rfl
@[simp] theorem countCmd_retry (s : State) : (countCmd s).retry = s.retry := rfl
@[simp] theorem countCmd_addr (s : State) : (countCmd s).addr = s.addr := rfl
@[simp] theorem countCmd_cmd (s : State) : (countCmd s).cmd = s.cmd := rfl
@[simp] theorem countCmd_chk (s : State) : (countCmd s).chk = s.chk := rfl
@[simp] theorem countCmd_cntChk (s : State) : (countCmd s).cntChk = s.cntChk := rfl
@[simp] theorem countCmd_cntCmd (s : State) :
    (countCmd s).cntCmd = satAdd s.cfg.cntW s.cntCmd 1 := rfl
@[simp] theorem countCmd_cntAddr (s : State) : (countCmd s).cntAddr = s.cntAddr := rfl
@[simp] theorem countCmd_cntNoise (s : State) : (countCmd s).cntNoise = s.cntNoise := rfl
@[simp] theorem countCmd_outLevel (s : State) : (countCmd s).outLevel = s.outLevel := rfl
@[simp] theorem countCmd_actValid (s : State) : (countCmd s).actValid = s.actValid := rfl
@[simp] theorem countCmd_actIndex (s : State) : (countCmd s).actIndex = s.actIndex := rfl
@[simp] theorem countCmd_actLine (s : State) : (countCmd s).actLine = s.actLine := rfl
@[simp] theorem countCmd_actValue (s : State) : (countCmd s).actValue = s.actValue := rfl

/-! `countChk` -/

@[simp] theorem countChk_cfg (n : Nat) (s : State) : (countChk n s).cfg = s.cfg := rfl
@[simp] theorem countChk_input (n : Nat) (s : State) : (countChk n s).input = s.input := rfl
@[simp] theorem countChk_st (n : Nat) (s : State) : (countChk n s).st = s.st := rfl
@[simp] theorem countChk_pre (n : Nat) (s : State) : (countChk n s).pre = s.pre := rfl
@[simp] theorem countChk_idx (n : Nat) (s : State) : (countChk n s).idx = s.idx := rfl
@[simp] theorem countChk_retry (n : Nat) (s : State) : (countChk n s).retry = s.retry := rfl
@[simp] theorem countChk_addr (n : Nat) (s : State) : (countChk n s).addr = s.addr := rfl
@[simp] theorem countChk_cmd (n : Nat) (s : State) : (countChk n s).cmd = s.cmd := rfl
@[simp] theorem countChk_chk (n : Nat) (s : State) : (countChk n s).chk = s.chk := rfl
@[simp] theorem countChk_cntChk (n : Nat) (s : State) :
    (countChk n s).cntChk = satAdd s.cfg.cntW s.cntChk n := rfl
@[simp] theorem countChk_cntCmd (n : Nat) (s : State) : (countChk n s).cntCmd = s.cntCmd := rfl
@[simp] theorem countChk_cntAddr (n : Nat) (s : State) : (countChk n s).cntAddr = s.cntAddr := rfl
@[simp] theorem countChk_cntNoise (n : Nat) (s : State) :
    (countChk n s).cntNoise = s.cntNoise := rfl
@[simp] theorem countChk_outLevel (n : Nat) (s : State) :
    (countChk n s).outLevel = s.outLevel := rfl
@[simp] theorem countChk_actValid (n : Nat) (s : State) :
    (countChk n s).actValid = s.actValid := rfl
@[simp] theorem countChk_actIndex (n : Nat) (s : State) :
    (countChk n s).actIndex = s.actIndex := rfl
@[simp] theorem countChk_actLine (n : Nat) (s : State) : (countChk n s).actLine = s.actLine := rfl
@[simp] theorem countChk_actValue (n : Nat) (s : State) :
    (countChk n s).actValue = s.actValue := rfl

/-! `abort` -/

@[simp] theorem abort_cfg (s : State) : (abort s).cfg = s.cfg := rfl
@[simp] theorem abort_input (s : State) : (abort s).input = s.input := rfl
@[simp] theorem abort_st (s : State) : (abort s).st = .sync := rfl
@[simp] theorem abort_pre (s : State) : (abort s).pre = 0#4 := rfl
@[simp] theorem abort_idx (s : State) : (abort s).idx = 0#3 := rfl
@[simp] theorem abort_retry (s : State) : (abort s).retry = 0 := rfl
@[simp] theorem abort_addr (s : State) : (abort s).addr = s.addr := rfl
@[simp] theorem abort_cmd (s : State) : (abort s).cmd = s.cmd := rfl
@[simp] theorem abort_chk (s : State) : (abort s).chk = s.chk := rfl
@[simp] theorem abort_cntChk (s : State) : (abort s).cntChk = s.cntChk := rfl
@[simp] theorem abort_cntCmd (s : State) : (abort s).cntCmd = s.cntCmd := rfl
@[simp] theorem abort_cntAddr (s : State) : (abort s).cntAddr = s.cntAddr := rfl
@[simp] theorem abort_cntNoise (s : State) : (abort s).cntNoise = s.cntNoise := rfl
@[simp] theorem abort_outLevel (s : State) : (abort s).outLevel = s.outLevel := rfl
@[simp] theorem abort_actValid (s : State) : (abort s).actValid = s.actValid := rfl
@[simp] theorem abort_actIndex (s : State) : (abort s).actIndex = s.actIndex := rfl
@[simp] theorem abort_actLine (s : State) : (abort s).actLine = s.actLine := rfl
@[simp] theorem abort_actValue (s : State) : (abort s).actValue = s.actValue := rfl

/-! `preambleBit` -/

@[simp] theorem preambleBit_cfg (s : State) : (preambleBit s).cfg = s.cfg := rfl
@[simp] theorem preambleBit_input (s : State) : (preambleBit s).input = s.input := rfl
@[simp] theorem preambleBit_st (s : State) : (preambleBit s).st = .sync := rfl
@[simp] theorem preambleBit_pre (s : State) : (preambleBit s).pre = preUp s.pre := rfl
@[simp] theorem preambleBit_idx (s : State) : (preambleBit s).idx = s.idx := rfl
@[simp] theorem preambleBit_retry (s : State) : (preambleBit s).retry = s.retry := rfl
@[simp] theorem preambleBit_addr (s : State) : (preambleBit s).addr = s.addr := rfl
@[simp] theorem preambleBit_cmd (s : State) : (preambleBit s).cmd = s.cmd := rfl
@[simp] theorem preambleBit_chk (s : State) : (preambleBit s).chk = s.chk := rfl
@[simp] theorem preambleBit_cntChk (s : State) : (preambleBit s).cntChk = s.cntChk := rfl
@[simp] theorem preambleBit_cntCmd (s : State) : (preambleBit s).cntCmd = s.cntCmd := rfl
@[simp] theorem preambleBit_cntAddr (s : State) : (preambleBit s).cntAddr = s.cntAddr := rfl
@[simp] theorem preambleBit_cntNoise (s : State) : (preambleBit s).cntNoise = s.cntNoise := rfl
@[simp] theorem preambleBit_outLevel (s : State) : (preambleBit s).outLevel = s.outLevel := rfl
@[simp] theorem preambleBit_actValid (s : State) : (preambleBit s).actValid = s.actValid := rfl
@[simp] theorem preambleBit_actIndex (s : State) : (preambleBit s).actIndex = s.actIndex := rfl
@[simp] theorem preambleBit_actLine (s : State) : (preambleBit s).actLine = s.actLine := rfl
@[simp] theorem preambleBit_actValue (s : State) : (preambleBit s).actValue = s.actValue := rfl

/-! `frameStart` -/

@[simp] theorem frameStart_cfg (s : State) : (frameStart s).cfg = s.cfg := rfl
@[simp] theorem frameStart_input (s : State) : (frameStart s).input = s.input := rfl
@[simp] theorem frameStart_st (s : State) : (frameStart s).st = .addr := rfl
@[simp] theorem frameStart_pre (s : State) : (frameStart s).pre = 0#4 := rfl
@[simp] theorem frameStart_idx (s : State) : (frameStart s).idx = 0#3 := rfl
@[simp] theorem frameStart_retry (s : State) : (frameStart s).retry = s.retry := rfl
@[simp] theorem frameStart_addr (s : State) : (frameStart s).addr = s.addr := rfl
@[simp] theorem frameStart_cmd (s : State) : (frameStart s).cmd = s.cmd := rfl
@[simp] theorem frameStart_chk (s : State) : (frameStart s).chk = s.chk := rfl
@[simp] theorem frameStart_cntChk (s : State) : (frameStart s).cntChk = s.cntChk := rfl
@[simp] theorem frameStart_cntCmd (s : State) : (frameStart s).cntCmd = s.cntCmd := rfl
@[simp] theorem frameStart_cntAddr (s : State) : (frameStart s).cntAddr = s.cntAddr := rfl
@[simp] theorem frameStart_cntNoise (s : State) : (frameStart s).cntNoise = s.cntNoise := rfl
@[simp] theorem frameStart_outLevel (s : State) : (frameStart s).outLevel = s.outLevel := rfl
@[simp] theorem frameStart_actValid (s : State) : (frameStart s).actValid = s.actValid := rfl
@[simp] theorem frameStart_actIndex (s : State) : (frameStart s).actIndex = s.actIndex := rfl
@[simp] theorem frameStart_actLine (s : State) : (frameStart s).actLine = s.actLine := rfl
@[simp] theorem frameStart_actValue (s : State) : (frameStart s).actValue = s.actValue := rfl

/-! `idleZero` -/

@[simp] theorem idleZero_cfg (s : State) : (idleZero s).cfg = s.cfg := rfl
@[simp] theorem idleZero_input (s : State) : (idleZero s).input = s.input := rfl
@[simp] theorem idleZero_st (s : State) : (idleZero s).st = .sync := rfl
@[simp] theorem idleZero_pre (s : State) : (idleZero s).pre = 0#4 := rfl
@[simp] theorem idleZero_idx (s : State) : (idleZero s).idx = s.idx := rfl
@[simp] theorem idleZero_retry (s : State) : (idleZero s).retry = s.retry := rfl
@[simp] theorem idleZero_addr (s : State) : (idleZero s).addr = s.addr := rfl
@[simp] theorem idleZero_cmd (s : State) : (idleZero s).cmd = s.cmd := rfl
@[simp] theorem idleZero_chk (s : State) : (idleZero s).chk = s.chk := rfl
@[simp] theorem idleZero_cntChk (s : State) : (idleZero s).cntChk = s.cntChk := rfl
@[simp] theorem idleZero_cntCmd (s : State) : (idleZero s).cntCmd = s.cntCmd := rfl
@[simp] theorem idleZero_cntAddr (s : State) : (idleZero s).cntAddr = s.cntAddr := rfl
@[simp] theorem idleZero_cntNoise (s : State) : (idleZero s).cntNoise = s.cntNoise := rfl
@[simp] theorem idleZero_outLevel (s : State) : (idleZero s).outLevel = s.outLevel := rfl
@[simp] theorem idleZero_actValid (s : State) : (idleZero s).actValid = s.actValid := rfl
@[simp] theorem idleZero_actIndex (s : State) : (idleZero s).actIndex = s.actIndex := rfl
@[simp] theorem idleZero_actLine (s : State) : (idleZero s).actLine = s.actLine := rfl
@[simp] theorem idleZero_actValue (s : State) : (idleZero s).actValue = s.actValue := rfl

/-! `discardPacket` -/

@[simp] theorem discardPacket_cfg (s : State) : (discardPacket s).cfg = s.cfg := rfl
@[simp] theorem discardPacket_input (s : State) : (discardPacket s).input = s.input := rfl
@[simp] theorem discardPacket_st (s : State) : (discardPacket s).st = .sync := rfl
@[simp] theorem discardPacket_pre (s : State) : (discardPacket s).pre = 0#4 := rfl
@[simp] theorem discardPacket_idx (s : State) : (discardPacket s).idx = s.idx := rfl
@[simp] theorem discardPacket_retry (s : State) : (discardPacket s).retry = s.retry := rfl
@[simp] theorem discardPacket_addr (s : State) : (discardPacket s).addr = s.addr := rfl
@[simp] theorem discardPacket_cmd (s : State) : (discardPacket s).cmd = s.cmd := rfl
@[simp] theorem discardPacket_chk (s : State) : (discardPacket s).chk = s.chk := rfl
@[simp] theorem discardPacket_cntChk (s : State) : (discardPacket s).cntChk = s.cntChk := rfl
@[simp] theorem discardPacket_cntCmd (s : State) : (discardPacket s).cntCmd = s.cntCmd := rfl
@[simp] theorem discardPacket_cntAddr (s : State) : (discardPacket s).cntAddr = s.cntAddr := rfl
@[simp] theorem discardPacket_cntNoise (s : State) : (discardPacket s).cntNoise = s.cntNoise := rfl
@[simp] theorem discardPacket_outLevel (s : State) : (discardPacket s).outLevel = s.outLevel := rfl
@[simp] theorem discardPacket_actValid (s : State) : (discardPacket s).actValid = s.actValid := rfl
@[simp] theorem discardPacket_actIndex (s : State) : (discardPacket s).actIndex = s.actIndex := rfl
@[simp] theorem discardPacket_actLine (s : State) : (discardPacket s).actLine = s.actLine := rfl
@[simp] theorem discardPacket_actValue (s : State) : (discardPacket s).actValue = s.actValue := rfl

/-! `returnToSync` -/

@[simp] theorem returnToSync_cfg (s : State) : (returnToSync s).cfg = s.cfg := rfl
@[simp] theorem returnToSync_input (s : State) : (returnToSync s).input = s.input := rfl
@[simp] theorem returnToSync_st (s : State) : (returnToSync s).st = .sync := rfl
@[simp] theorem returnToSync_pre (s : State) : (returnToSync s).pre = 0#4 := rfl
@[simp] theorem returnToSync_idx (s : State) : (returnToSync s).idx = s.idx := rfl
@[simp] theorem returnToSync_retry (s : State) : (returnToSync s).retry = s.retry := rfl
@[simp] theorem returnToSync_addr (s : State) : (returnToSync s).addr = s.addr := rfl
@[simp] theorem returnToSync_cmd (s : State) : (returnToSync s).cmd = s.cmd := rfl
@[simp] theorem returnToSync_chk (s : State) : (returnToSync s).chk = s.chk := rfl
@[simp] theorem returnToSync_cntChk (s : State) : (returnToSync s).cntChk = s.cntChk := rfl
@[simp] theorem returnToSync_cntCmd (s : State) : (returnToSync s).cntCmd = s.cntCmd := rfl
@[simp] theorem returnToSync_cntAddr (s : State) : (returnToSync s).cntAddr = s.cntAddr := rfl
@[simp] theorem returnToSync_cntNoise (s : State) : (returnToSync s).cntNoise = s.cntNoise := rfl
@[simp] theorem returnToSync_outLevel (s : State) : (returnToSync s).outLevel = s.outLevel := rfl
@[simp] theorem returnToSync_actValid (s : State) : (returnToSync s).actValid = s.actValid := rfl
@[simp] theorem returnToSync_actIndex (s : State) : (returnToSync s).actIndex = s.actIndex := rfl
@[simp] theorem returnToSync_actLine (s : State) : (returnToSync s).actLine = s.actLine := rfl
@[simp] theorem returnToSync_actValue (s : State) : (returnToSync s).actValue = s.actValue := rfl

/-! `dispatchAction` -/

@[simp] theorem dispatchAction_cfg (fn : BitVec 2) (v : Bit) (s : State) :
    (dispatchAction fn v s).cfg = s.cfg := rfl
@[simp] theorem dispatchAction_input (fn : BitVec 2) (v : Bit) (s : State) :
    (dispatchAction fn v s).input = s.input := rfl
@[simp] theorem dispatchAction_st (fn : BitVec 2) (v : Bit) (s : State) :
    (dispatchAction fn v s).st = s.st := rfl
@[simp] theorem dispatchAction_pre (fn : BitVec 2) (v : Bit) (s : State) :
    (dispatchAction fn v s).pre = s.pre := rfl
@[simp] theorem dispatchAction_idx (fn : BitVec 2) (v : Bit) (s : State) :
    (dispatchAction fn v s).idx = s.idx := rfl
@[simp] theorem dispatchAction_retry (fn : BitVec 2) (v : Bit) (s : State) :
    (dispatchAction fn v s).retry = s.retry := rfl
@[simp] theorem dispatchAction_addr (fn : BitVec 2) (v : Bit) (s : State) :
    (dispatchAction fn v s).addr = s.addr := rfl
@[simp] theorem dispatchAction_cmd (fn : BitVec 2) (v : Bit) (s : State) :
    (dispatchAction fn v s).cmd = s.cmd := rfl
@[simp] theorem dispatchAction_chk (fn : BitVec 2) (v : Bit) (s : State) :
    (dispatchAction fn v s).chk = s.chk := rfl
@[simp] theorem dispatchAction_cntChk (fn : BitVec 2) (v : Bit) (s : State) :
    (dispatchAction fn v s).cntChk = s.cntChk := rfl
@[simp] theorem dispatchAction_cntCmd (fn : BitVec 2) (v : Bit) (s : State) :
    (dispatchAction fn v s).cntCmd = s.cntCmd := rfl
@[simp] theorem dispatchAction_cntAddr (fn : BitVec 2) (v : Bit) (s : State) :
    (dispatchAction fn v s).cntAddr = s.cntAddr := rfl
@[simp] theorem dispatchAction_cntNoise (fn : BitVec 2) (v : Bit) (s : State) :
    (dispatchAction fn v s).cntNoise = s.cntNoise := rfl
@[simp] theorem dispatchAction_outLevel (fn : BitVec 2) (v : Bit) (s : State) :
    (dispatchAction fn v s).outLevel = setLevel s.outLevel (s.cfg.outMap.line fn) v := rfl
@[simp] theorem dispatchAction_actValid (fn : BitVec 2) (v : Bit) (s : State) :
    (dispatchAction fn v s).actValid = true := rfl
@[simp] theorem dispatchAction_actIndex (fn : BitVec 2) (v : Bit) (s : State) :
    (dispatchAction fn v s).actIndex = fn := rfl
@[simp] theorem dispatchAction_actLine (fn : BitVec 2) (v : Bit) (s : State) :
    (dispatchAction fn v s).actLine = s.cfg.outMap.line fn := rfl
@[simp] theorem dispatchAction_actValue (fn : BitVec 2) (v : Bit) (s : State) :
    (dispatchAction fn v s).actValue = v := rfl

/-! `cmdBit` -/

@[simp] theorem cmdBit_cfg (b : Bit) (s : State) : (cmdBit b s).cfg = s.cfg := rfl
@[simp] theorem cmdBit_input (b : Bit) (s : State) : (cmdBit b s).input = s.input := rfl
@[simp] theorem cmdBit_st (b : Bit) (s : State) :
    (cmdBit b s).st = if s.idx = 7#3 then .ib2 else s.st := rfl
@[simp] theorem cmdBit_pre (b : Bit) (s : State) : (cmdBit b s).pre = s.pre := rfl
@[simp] theorem cmdBit_idx (b : Bit) (s : State) : (cmdBit b s).idx = nextIdx s.idx := rfl
@[simp] theorem cmdBit_retry (b : Bit) (s : State) : (cmdBit b s).retry = s.retry := rfl
@[simp] theorem cmdBit_addr (b : Bit) (s : State) : (cmdBit b s).addr = s.addr := rfl
@[simp] theorem cmdBit_cmd (b : Bit) (s : State) : (cmdBit b s).cmd = shiftIn s.cmd b := rfl
@[simp] theorem cmdBit_chk (b : Bit) (s : State) : (cmdBit b s).chk = s.chk := rfl
@[simp] theorem cmdBit_cntChk (b : Bit) (s : State) : (cmdBit b s).cntChk = s.cntChk := rfl
@[simp] theorem cmdBit_cntCmd (b : Bit) (s : State) : (cmdBit b s).cntCmd = s.cntCmd := rfl
@[simp] theorem cmdBit_cntAddr (b : Bit) (s : State) : (cmdBit b s).cntAddr = s.cntAddr := rfl
@[simp] theorem cmdBit_cntNoise (b : Bit) (s : State) : (cmdBit b s).cntNoise = s.cntNoise := rfl
@[simp] theorem cmdBit_outLevel (b : Bit) (s : State) : (cmdBit b s).outLevel = s.outLevel := rfl
@[simp] theorem cmdBit_actValid (b : Bit) (s : State) : (cmdBit b s).actValid = s.actValid := rfl
@[simp] theorem cmdBit_actIndex (b : Bit) (s : State) : (cmdBit b s).actIndex = s.actIndex := rfl
@[simp] theorem cmdBit_actLine (b : Bit) (s : State) : (cmdBit b s).actLine = s.actLine := rfl
@[simp] theorem cmdBit_actValue (b : Bit) (s : State) : (cmdBit b s).actValue = s.actValue := rfl

/-! `chkBit` -/

@[simp] theorem chkBit_cfg (b : Bit) (s : State) : (chkBit b s).cfg = s.cfg := rfl
@[simp] theorem chkBit_input (b : Bit) (s : State) : (chkBit b s).input = s.input := rfl
@[simp] theorem chkBit_st (b : Bit) (s : State) :
    (chkBit b s).st = if s.idx = 7#3 then .term else s.st := rfl
@[simp] theorem chkBit_pre (b : Bit) (s : State) : (chkBit b s).pre = s.pre := rfl
@[simp] theorem chkBit_idx (b : Bit) (s : State) : (chkBit b s).idx = nextIdx s.idx := rfl
@[simp] theorem chkBit_retry (b : Bit) (s : State) : (chkBit b s).retry = s.retry := rfl
@[simp] theorem chkBit_addr (b : Bit) (s : State) : (chkBit b s).addr = s.addr := rfl
@[simp] theorem chkBit_cmd (b : Bit) (s : State) : (chkBit b s).cmd = s.cmd := rfl
@[simp] theorem chkBit_chk (b : Bit) (s : State) : (chkBit b s).chk = shiftIn s.chk b := rfl
@[simp] theorem chkBit_cntChk (b : Bit) (s : State) : (chkBit b s).cntChk = s.cntChk := rfl
@[simp] theorem chkBit_cntCmd (b : Bit) (s : State) : (chkBit b s).cntCmd = s.cntCmd := rfl
@[simp] theorem chkBit_cntAddr (b : Bit) (s : State) : (chkBit b s).cntAddr = s.cntAddr := rfl
@[simp] theorem chkBit_cntNoise (b : Bit) (s : State) : (chkBit b s).cntNoise = s.cntNoise := rfl
@[simp] theorem chkBit_outLevel (b : Bit) (s : State) : (chkBit b s).outLevel = s.outLevel := rfl
@[simp] theorem chkBit_actValid (b : Bit) (s : State) : (chkBit b s).actValid = s.actValid := rfl
@[simp] theorem chkBit_actIndex (b : Bit) (s : State) : (chkBit b s).actIndex = s.actIndex := rfl
@[simp] theorem chkBit_actLine (b : Bit) (s : State) : (chkBit b s).actLine = s.actLine := rfl
@[simp] theorem chkBit_actValue (b : Bit) (s : State) : (chkBit b s).actValue = s.actValue := rfl

/-! `State.resetWith` -/

@[simp] theorem resetWith_cfg (cfg : Config) (input : List Pins) :
    (State.resetWith cfg input).cfg = cfg := rfl
@[simp] theorem resetWith_input (cfg : Config) (input : List Pins) :
    (State.resetWith cfg input).input = input := rfl
@[simp] theorem resetWith_st (cfg : Config) (input : List Pins) :
    (State.resetWith cfg input).st = .sync := rfl
@[simp] theorem resetWith_pre (cfg : Config) (input : List Pins) :
    (State.resetWith cfg input).pre = 0#4 := rfl
@[simp] theorem resetWith_idx (cfg : Config) (input : List Pins) :
    (State.resetWith cfg input).idx = 0#3 := rfl
@[simp] theorem resetWith_retry (cfg : Config) (input : List Pins) :
    (State.resetWith cfg input).retry = 0 := rfl
@[simp] theorem resetWith_addr (cfg : Config) (input : List Pins) :
    (State.resetWith cfg input).addr = 0x00#8 := rfl
@[simp] theorem resetWith_cmd (cfg : Config) (input : List Pins) :
    (State.resetWith cfg input).cmd = 0x00#8 := rfl
@[simp] theorem resetWith_chk (cfg : Config) (input : List Pins) :
    (State.resetWith cfg input).chk = 0x00#8 := rfl
@[simp] theorem resetWith_cntChk (cfg : Config) (input : List Pins) :
    (State.resetWith cfg input).cntChk = 0 := rfl
@[simp] theorem resetWith_cntCmd (cfg : Config) (input : List Pins) :
    (State.resetWith cfg input).cntCmd = 0 := rfl
@[simp] theorem resetWith_cntAddr (cfg : Config) (input : List Pins) :
    (State.resetWith cfg input).cntAddr = 0 := rfl
@[simp] theorem resetWith_cntNoise (cfg : Config) (input : List Pins) :
    (State.resetWith cfg input).cntNoise = 0 := rfl
@[simp] theorem resetWith_outLevel (cfg : Config) (input : List Pins) :
    (State.resetWith cfg input).outLevel = cfg.outReset := rfl
@[simp] theorem resetWith_actValid (cfg : Config) (input : List Pins) :
    (State.resetWith cfg input).actValid = false := rfl
@[simp] theorem resetWith_actIndex (cfg : Config) (input : List Pins) :
    (State.resetWith cfg input).actIndex = 0#2 := rfl
@[simp] theorem resetWith_actLine (cfg : Config) (input : List Pins) :
    (State.resetWith cfg input).actLine = 0#2 := rfl
@[simp] theorem resetWith_actValue (cfg : Config) (input : List Pins) :
    (State.resetWith cfg input).actValue = false := rfl

end Sys2Proof.Machine
end

