-- ==== Sys2Proof/Laws/Ops.lean ====
section
/-! SUPPORT. One lemma per shared operation that says once everything it can do. -/

namespace Sys2Proof.Machine

/-! Arithmetic and bits. -/

theorem satAdd_le_max (w c k : Nat) : satAdd w c k ≤ 2 ^ w - 1 := Nat.min_le_right _ _

theorem satAdd_eq_of_le {w c k : Nat} (h : c + k ≤ 2 ^ w - 1) : satAdd w c k = c + k :=
  Nat.min_eq_left h

theorem le_satAdd {w c : Nat} (k : Nat) (h : c ≤ 2 ^ w - 1) : c ≤ satAdd w c k :=
  Nat.le_min.2 ⟨Nat.le_add_right c k, h⟩

theorem satAdd_satAdd (w c j k : Nat) : satAdd w (satAdd w c j) k = satAdd w c (j + k) := by
  unfold satAdd; omega

theorem preUp_toNat (p : BitVec 4) : (preUp p).toNat = min (p.toNat + 1) 15 := by
  simp only [preUp, satAdd, BitVec.toNat_ofNat]
  omega

theorem shiftIn_getLsbD (r : Byte) (b : Bit) (i : Nat) :
    (shiftIn r b).getLsbD i = if i = 0 then b else decide (i < 8) && r.getLsbD (i - 1) := by
  unfold shiftIn
  rw [BitVec.getLsbD_append, BitVec.getLsbD_extractLsb', Nat.zero_add]
  rcases i with _ | i
  · simp
  · by_cases h : i < 7
    · have h8 : i + 1 < 8 := by omega
      simp [h, h8]
    · have h8 : ¬ i + 1 < 8 := by omega
      simp [h, h8]

theorem setLevel_getLsbD (o : BitVec 4) (ln : BitVec 2) (v : Bit) (n : Nat) (hn : n < 4) :
    (setLevel o ln v).getLsbD n = if n = ln.toNat then v else o.getLsbD n := by
  have hl := ln.isLt
  unfold setLevel
  by_cases h : n = ln.toNat
  · subst h; cases v <;> simp [hn]
  · have hz : ¬(ln.toNat ≤ n ∧ n - ln.toNat = 0) := by omega
    cases v <;> simp [h, hn] <;> omega

theorem checksumError_iff (a c k : Byte) : checksumError a c k = true ↔ k ≠ a ^^^ c := by
  constructor
  · rintro h rfl
    simp [checksumError, mismatchAt] at h
  · intro h
    by_contra hn
    apply h
    simp only [checksumError, mismatchAt, Bool.or_eq_true, not_or, Bool.not_eq_true] at hn
    obtain ⟨⟨⟨⟨⟨⟨⟨h0, h1⟩, h2⟩, h3⟩, h4⟩, h5⟩, h6⟩, h7⟩ := hn
    refine BitVec.eq_of_getLsbD_eq fun i hi => ?_
    rw [BitVec.getLsbD_xor]
    interval_cases i <;> simp_all

theorem checksumError_eq_false_iff (a c k : Byte) : checksumError a c k = false ↔ k = a ^^^ c := by
  rw [← Bool.not_eq_true, checksumError_iff, not_not]

/-! What a placed or spelled row asks of the state. -/

theorem inSync_iff (s : State) : inSync s = true ↔ s.st = .sync ∨ s.st = .unused := by
  simp [inSync]

theorem awaitsLastBitOf_iff (s : State) (a : Byte) :
    awaitsLastBitOf s a = true ↔ s.st = .addr ∧ s.idx = 7#3 ∧ shiftIn s.addr (a.getLsbD 0) = a := by
  simp [awaitsLastBitOf, and_assoc]

theorem awaitsTerminatorOf_iff (s : State) (a c k : Byte) :
    awaitsTerminatorOf s a c k = true ↔ s.st = .term ∧ s.addr = a ∧ s.cmd = c ∧ s.chk = k := by
  simp [awaitsTerminatorOf, and_assoc]

/-! The operations of a step. -/

theorem absorbInvalid_cases (s : State) :
    (s.retry + 1 < s.cfg.retryCap ∧ absorbInvalid s = { countNoise s with retry := s.retry + 1 }) ∨
      (s.cfg.retryCap ≤ s.retry + 1 ∧ absorbInvalid s = abort (countNoise s)) := by
  unfold absorbInvalid
  split
  · exact .inr ⟨‹_›, rfl⟩
  · exact .inl ⟨Nat.lt_of_not_le ‹_›, rfl⟩

theorem observe_cases (b : Bit) (s : State) :
    (b = true ∧ observe b s = preambleBit s) ∨
      (b = false ∧ InStartRange s.pre ∧ observe b s = frameStart s) ∨
      (b = false ∧ ¬ InStartRange s.pre ∧ observe b s = idleZero s) := by
  cases b
  · by_cases h : InStartRange s.pre
    · exact .inr (.inl ⟨rfl, h, if_pos h⟩)
    · exact .inr (.inr ⟨rfl, h, if_neg h⟩)
  · exact .inl ⟨rfl, rfl⟩

theorem addrBit_cases (b : Bit) (s : State) :
    (s.idx ≠ 7#3 ∧ addrBit b s = { s with addr := shiftIn s.addr b, idx := s.idx + 1#3 }) ∨
      (s.idx = 7#3 ∧ passesFilter s.cfg (shiftIn s.addr b) = true ∧
        addrBit b s = { s with addr := shiftIn s.addr b, idx := 0#3, st := .ib1 }) ∨
      (s.idx = 7#3 ∧ passesFilter s.cfg (shiftIn s.addr b) = false ∧
        addrBit b s = { s with addr := shiftIn s.addr b, idx := 0#3, st := .sync, pre := 0#4 }) := by
  by_cases h : s.idx = 7#3
  · by_cases hp : passesFilter s.cfg (shiftIn s.addr b) = true
    · exact .inr (.inl ⟨h, hp, by simp [addrBit, applyFilter, nextIdx, h, hp]⟩)
    · rw [Bool.not_eq_true] at hp
      exact .inr (.inr ⟨h, hp, by simp [addrBit, applyFilter, nextIdx, discardPacket, h, hp]⟩)
  · exact .inl ⟨h, by simp [addrBit, nextIdx, h]⟩

theorem cmdBit_cases (b : Bit) (s : State) :
    (s.idx ≠ 7#3 ∧ cmdBit b s = { s with cmd := shiftIn s.cmd b, idx := s.idx + 1#3 }) ∨
      (s.idx = 7#3 ∧ cmdBit b s = { s with cmd := shiftIn s.cmd b, idx := 0#3, st := .ib2 }) := by
  by_cases h : s.idx = 7#3
  · exact .inr ⟨h, by simp [cmdBit, nextIdx, h]⟩
  · exact .inl ⟨h, by simp [cmdBit, nextIdx, h]⟩

theorem chkBit_cases (b : Bit) (s : State) :
    (s.idx ≠ 7#3 ∧ chkBit b s = { s with chk := shiftIn s.chk b, idx := s.idx + 1#3 }) ∨
      (s.idx = 7#3 ∧ chkBit b s = { s with chk := shiftIn s.chk b, idx := 0#3, st := .term }) := by
  by_cases h : s.idx = 7#3
  · exact .inr ⟨h, by simp [chkBit, nextIdx, h]⟩
  · exact .inl ⟨h, by simp [chkBit, nextIdx, h]⟩

theorem separator1_cases (b : Bit) (s : State) :
    (b = false ∧ separator1 b s = { s with st := .cmd }) ∨
      (b = true ∧ separator1 b s = { countAddr s with st := .cmd }) := by
  cases b
  · exact .inl ⟨rfl, rfl⟩
  · exact .inr ⟨rfl, rfl⟩

theorem separator2_cases (b : Bit) (s : State) :
    (b = false ∧ separator2 b s = { s with st := .chk }) ∨
      (b = true ∧ separator2 b s = { countCmd s with st := .chk }) := by
  cases b
  · exact .inl ⟨rfl, rfl⟩
  · exact .inr ⟨rfl, rfl⟩

theorem terminate_cases (fn : BitVec 2) (v t : Bit) (s : State) :
    (s.chk = s.addr ^^^ s.cmd ∧
        terminate fn v t s = returnToSync (dispatchAction fn v (countChk (!t).toNat s))) ∨
      (s.chk ≠ s.addr ^^^ s.cmd ∧
        terminate fn v t s = returnToSync (countChk (1 + (!t).toNat) s)) := by
  by_cases h : s.chk = s.addr ^^^ s.cmd
  · exact .inl ⟨h, by
      simp [terminate, terminatorError, (checksumError_eq_false_iff s.addr s.cmd s.chk).2 h]⟩
  · exact .inr ⟨h, by
      simp [terminate, terminatorError, (checksumError_iff s.addr s.cmd s.chk).2 h]⟩

theorem durationStep_cases (d : Nat) (s : State) :
    (classify s.cfg d = .zero ∧ durationStep d s = consumeBit false s) ∨
      (classify s.cfg d = .one ∧ durationStep d s = consumeBit true s) ∨
      (classify s.cfg d = .invalid ∧ durationStep d s = consumeInvalid s) := by
  unfold durationStep
  cases classify s.cfg d <;> simp

/-! The step on a bit, one lemma for each decoder state (43_packet_decoder.md R162). -/

theorem consumeBit_of_inSync (b : Bit) {s : State} (h : inSync s = true) :
    consumeBit b s = observe b (bitFetched s) := by
  rcases (inSync_iff s).1 h with h | h <;> simp [consumeBit, bitStep, h]

theorem consumeBit_of_addr (b : Bit) {s : State} (h : s.st = .addr) :
    consumeBit b s = addrBit b (bitFetched s) := by simp [consumeBit, bitStep, h]

theorem consumeBit_of_ib1 (b : Bit) {s : State} (h : s.st = .ib1) :
    consumeBit b s = separator1 b (bitFetched s) := by simp [consumeBit, bitStep, h]

theorem consumeBit_of_cmd (b : Bit) {s : State} (h : s.st = .cmd) :
    consumeBit b s = cmdBit b (bitFetched s) := by simp [consumeBit, bitStep, h]

theorem consumeBit_of_ib2 (b : Bit) {s : State} (h : s.st = .ib2) :
    consumeBit b s = separator2 b (bitFetched s) := by simp [consumeBit, bitStep, h]

theorem consumeBit_of_chk (b : Bit) {s : State} (h : s.st = .chk) :
    consumeBit b s = chkBit b (bitFetched s) := by simp [consumeBit, bitStep, h]

theorem consumeBit_of_term (b : Bit) {s : State} (h : s.st = .term) :
    consumeBit b s = terminate (functionNumber s.cmd) (desiredValue s.cmd) b (bitFetched s) := by
  simp [consumeBit, bitStep, h]

/-! The edge. -/

theorem rowOfDuration_isOk (s : State) (d : Nat) (h : d < 2 ^ s.cfg.durW) :
    ∃ i, rowOfDuration s d = .ok i := by
  unfold rowOfDuration decodeDuration
  rw [if_pos h]
  unfold spelledBit
  cases classify s.cfg d <;> exact ⟨_, rfl⟩

theorem nextEvent_cases (s : State) (h : s.cfg.Legal) :
    (s.input = [] ∧ nextEvent s = .settle (idleEdge s)) ∨
      ∃ p ps, s.input = p :: ps ∧
        ((p.rst = true ∧ nextEvent s = .settle (resetEdge s)) ∨
          (p.rst = false ∧ p.durValid = false ∧ nextEvent s = .settle (idleEdge s)) ∨
          (p.rst = false ∧ p.durValid = true ∧ p.dur < 2 ^ s.cfg.durW ∧
            ∃ i, rowOfDuration s p.dur = .ok i ∧ nextEvent s = .run i) ∨
          (p.rst = false ∧ p.durValid = true ∧ ¬ p.dur < 2 ^ s.cfg.durW ∧
            nextEvent s = .refuse .durationTooWide)) := by
  unfold nextEvent
  rw [if_pos h]
  rcases hin : s.input with _ | ⟨p, ps⟩
  · exact .inl ⟨rfl, rfl⟩
  · refine .inr ⟨p, ps, rfl, ?_⟩
    rcases hr : p.rst
    · rcases hv : p.durValid
      · exact .inr (.inl ⟨rfl, rfl, by simp [hr, hv]⟩)
      · by_cases hd : p.dur < 2 ^ s.cfg.durW
        · obtain ⟨i, hi⟩ := rowOfDuration_isOk s p.dur hd
          exact .inr (.inr (.inl ⟨rfl, rfl, hd, i, hi, by simp [hr, hv, hi]⟩))
        · exact .inr (.inr (.inr ⟨rfl, rfl, hd, by
            simp [hr, hv, rowOfDuration, decodeDuration, if_neg hd]⟩))
    · exact .inl ⟨rfl, by simp [hr]⟩

theorem step_of_settle {s s' : State} (h : nextEvent s = .settle s') : step s = .next s' := by
  unfold step; rw [h]

theorem step_of_run {s : State} {i : Instr} (h : nextEvent s = .run i) : step s = exec i s := by
  unfold step; rw [h]

theorem step_of_refuse {s : State} {r : Refusal} (h : nextEvent s = .refuse r) :
    step s = .refused r := by
  unfold step; rw [h]

/-- Everything an edge with a next state can have done. -/
theorem step_next_cases {s t : State} (h : step s = .next t) :
    s.cfg.Legal ∧
      ((s.input = [] ∧ t = idleEdge s) ∨
        ∃ p ps, s.input = p :: ps ∧
          ((p.rst = true ∧ t = resetEdge s) ∨
            (p.rst = false ∧ p.durValid = false ∧ t = idleEdge s) ∨
            (p.rst = false ∧ p.durValid = true ∧ p.dur < 2 ^ s.cfg.durW ∧
              ∃ i, rowOfDuration s p.dur = .ok i ∧ exec i s = .next t))) := by
  by_cases hl : s.cfg.Legal
  · refine ⟨hl, ?_⟩
    rcases nextEvent_cases s hl with ⟨hi, he⟩ | ⟨p, ps, hi, ⟨hr, he⟩ | ⟨hr, hv, he⟩ |
      ⟨hr, hv, hd, i, hrow, he⟩ | ⟨_, _, _, he⟩⟩
    · rw [step_of_settle he] at h
      exact .inl ⟨hi, by cases h; rfl⟩
    · rw [step_of_settle he] at h
      exact .inr ⟨p, ps, hi, .inl ⟨hr, by cases h; rfl⟩⟩
    · rw [step_of_settle he] at h
      exact .inr ⟨p, ps, hi, .inr (.inl ⟨hr, hv, by cases h; rfl⟩)⟩
    · rw [step_of_run he] at h
      exact .inr ⟨p, ps, hi, .inr (.inr ⟨hr, hv, hd, i, hrow, h⟩)⟩
    · rw [step_of_refuse he] at h
      cases h
  · have he : nextEvent s = .refuse .illegalConfiguration := if_neg hl
    rw [step_of_refuse he] at h
    cases h

/-! Input streams and runs. -/

theorem spellsBits_length {cfg : Config} :
    ∀ {ds : List Nat} {bs : List Bit}, SpellsBits cfg ds bs → ds.length = bs.length
  | [], [], _ => rfl
  | _ :: _, _ :: _, h => congrArg (· + 1) (spellsBits_length h.2)
  | [], _ :: _, h => h.elim
  | _ :: _, [], h => h.elim

theorem runEdges_zero (s : State) : runEdges 0 s = .next s := rfl

theorem core_run_succ (M : Host.Core) {s t : M.State} (n : Nat) (h : M.step s = .next t) :
    M.run (n + 1) s = M.run n t := by
  rw [Host.Core.run, h]

theorem core_run_succ_refused (M : Host.Core) {s : M.State} {r : M.Refusal} (n : Nat)
    (h : M.step s = .refused r) : M.run (n + 1) s = .refused r := by
  rw [Host.Core.run, h]

theorem runEdges_succ {s t : State} (n : Nat) (h : step s = .next t) :
    runEdges (n + 1) s = runEdges n t :=
  core_run_succ Sys2Proof.core n h

theorem runEdges_succ_refused {s : State} {r : Refusal} (n : Nat) (h : step s = .refused r) :
    runEdges (n + 1) s = .refused r :=
  core_run_succ_refused Sys2Proof.core n h

theorem runEdges_add {s t : State} {m : Nat} (n : Nat) (h : runEdges m s = .next t) :
    runEdges (m + n) s = runEdges n t := by
  induction m generalizing s with
  | zero =>
    cases h
    rw [Nat.zero_add]
  | succ m ih =>
    cases hs : step s with
    | next u =>
      rw [runEdges_succ m hs] at h
      rw [Nat.succ_add, Nat.succ_eq_add_one, runEdges_succ (m + n) hs]
      exact ih h
    | fault r => exact r.rec
    | refused r =>
      rw [runEdges_succ_refused m hs] at h
      cases h

end Sys2Proof.Machine
end

