-- ==== Sys2Proof/Laws/PerInstr.lean ====
section
/-! SUPPORT. Per-instruction families about the rows as encodings. -/

namespace Sys2Proof.Laws

/-- A well-formed row's encoding fits the width of its format (30_encoding.md R80 to R83). -/
def EncodedWidth.Statement (i : Instr) : Prop :=
  ∀ cfg pre, WellFormed cfg pre i → (encode i).bits < 2 ^ (encode i).width cfg

theorem EncodedWidth.pulseZero (d : Nat) : Statement (.pulseZero d) := fun _ _ h => h.2
theorem EncodedWidth.pulseOne (d : Nat) : Statement (.pulseOne d) := fun _ _ h => h.2.2
theorem EncodedWidth.pulseInvalid (d : Nat) : Statement (.pulseInvalid d) := fun _ _ h => h.2
theorem EncodedWidth.syncOne : Statement .syncOne := fun _ _ _ => Nat.one_lt_two
theorem EncodedWidth.syncStart : Statement .syncStart := fun _ _ _ => Nat.two_pos
theorem EncodedWidth.syncIdle : Statement .syncIdle := fun _ _ _ => Nat.two_pos
theorem EncodedWidth.discardNotacc0 (x : BitVec 7) : Statement (.discardNotacc0 x) :=
  fun _ _ _ => BitVec.isLt _
theorem EncodedWidth.discardNotacc11 (x : BitVec 6) : Statement (.discardNotacc11 x) :=
  fun _ _ _ => BitVec.isLt _
theorem EncodedWidth.discardOtheraddr (a : BitVec 6) : Statement (.discardOtheraddr a) :=
  fun _ _ _ => BitVec.isLt _
theorem EncodedWidth.setO0Off (a : BitVec 6) (s1 : Bit) (x : BitVec 5) (s2 : Bit) (k : Byte) (t : Bit) :
    Statement (.setO0Off a s1 x s2 k t) := fun _ _ _ => BitVec.isLt _
theorem EncodedWidth.setO0On (a : BitVec 6) (s1 : Bit) (x : BitVec 5) (s2 : Bit) (k : Byte) (t : Bit) :
    Statement (.setO0On a s1 x s2 k t) := fun _ _ _ => BitVec.isLt _
theorem EncodedWidth.setO1Off (a : BitVec 6) (s1 : Bit) (x : BitVec 5) (s2 : Bit) (k : Byte) (t : Bit) :
    Statement (.setO1Off a s1 x s2 k t) := fun _ _ _ => BitVec.isLt _
theorem EncodedWidth.setO1On (a : BitVec 6) (s1 : Bit) (x : BitVec 5) (s2 : Bit) (k : Byte) (t : Bit) :
    Statement (.setO1On a s1 x s2 k t) := fun _ _ _ => BitVec.isLt _
theorem EncodedWidth.setO2Off (a : BitVec 6) (s1 : Bit) (x : BitVec 5) (s2 : Bit) (k : Byte) (t : Bit) :
    Statement (.setO2Off a s1 x s2 k t) := fun _ _ _ => BitVec.isLt _
theorem EncodedWidth.setO2On (a : BitVec 6) (s1 : Bit) (x : BitVec 5) (s2 : Bit) (k : Byte) (t : Bit) :
    Statement (.setO2On a s1 x s2 k t) := fun _ _ _ => BitVec.isLt _
theorem EncodedWidth.setO3Off (a : BitVec 6) (s1 : Bit) (x : BitVec 5) (s2 : Bit) (k : Byte) (t : Bit) :
    Statement (.setO3Off a s1 x s2 k t) := fun _ _ _ => BitVec.isLt _
theorem EncodedWidth.setO3On (a : BitVec 6) (s1 : Bit) (x : BitVec 5) (s2 : Bit) (k : Byte) (t : Bit) :
    Statement (.setO3On a s1 x s2 k t) := fun _ _ _ => BitVec.isLt _
theorem EncodedWidth.checksum (a : Byte) (s1 : Bit) (c : Byte) (s2 : Bit) (k : Byte) (t : Bit) :
    Statement (.checksum a s1 c s2 k t) := fun _ _ _ => BitVec.isLt _

end Sys2Proof.Laws
end

