-- ==== Sys2Proof/Tests/Slice0.lean ====
section
/-! SUPPORT. The m/-! One step each: the pulse rows. -/

-- 42_byte_assembler.md R143: the new bit enters at bit 0
theorem test_pulseOne_shifts_into_cmd :
    after (step { core Config.cfg0 .cmd [99] with cmd := 0x41#8, idx := 2#3, retry := 4 })
      (fun s => (s.cmd, s.idx, s.st, s.retry)) = some (0x83#8, 3#3, .cmd, 0) := by decide
-- 43_packet_decoder.md, the example of R171
theorem test_pulseOne_in_ib2_counts :
    after (step (core Config.cfg0 .ib2 [58])) (fun s => (s.cntCmd, s.cntAddr, s.st)) =
      some (1, 0, .chk) := by decide
theorem test_pulseZero_in_ib1_counts_nothing :
    after (step (core Config.cfg0 .ib1 [100])) (fun s => (s.cntAddr, s.st)) = some (0, .cmd) := by decide
-- 42_byte_assembler.md R142: `B:82` after its seven bits `1000001` goes to IB1
theorem test_pulseZero_completes_the_base_address :
    after (step { core Config.cfg0 .addr [116] with addr := 0x41#8, idx := 7#3 })
      (fun s => (s.addr, s.idx, s.st)) = some (0x82#8, 0#3, .ib1) := by decide
-- 95_test_vectors.md V40: the third noise in CMD at idx 2 aborts
theorem test_pulseInvalid_gives_up_at_the_cap :
    after (step { core cap3 .cmd [20] with idx := 2#3, retry := 2, cntNoise := 2 })
      (fun s => (s.st, s.idx, s.retry, s.cntNoise)) = some (.sync, 0#3, 0, 3) := by decide
theorem test_pulseInvalid_is_retried :
    after (step { core Config.cfg0 .sync [54] with pre := 5#4, retry := 998 })
      (fun s => (s.st, s.pre, s.retry, s.cntNoise)) = some (.sync, 5#4, 999, 1) := by decide

/-! The sync rows (41_frame_synchronizer.md R121 to R124; 95_test_vectors.md V8). -/

theorem test_syncOne_counts :
    after (exec .syncOne { core Config.cfg0 .sync [58] with pre := 11#4 }) (fun s => (s.pre, s.st)) =
      some (12#4, .sync) := by decide
theorem test_syncOne_saturates :
    after (exec .syncOne { core Config.cfg0 .sync [58] with pre := 15#4 }) (fun s => s.pre) =
      some 15#4 := by decide
theorem test_syncStart_after_ten :
    after (step { core Config.cfg0 .sync [116] with pre := 10#4, idx := 3#3 })
      (fun s => (s.st, s.pre, s.idx)) = some (.addr, 0#4, 0#3) := by decide
theorem test_syncStart_after_fourteen :
    after (step { core Config.cfg0 .sync [116] with pre := 14#4 }) (fun s => s.st) = some .addr := by decide
theorem test_syncIdle_after_nine :
    after (step { core Config.cfg0 .sync [116] with pre := 9#4 }) (fun s => (s.st, s.pre)) =
      some (.sync, 0#4) := by decide
theorem test_syncIdle_after_fifteen :
    after (step { core Config.cfg0 .sync [116] with pre := 15#4 }) (fun s => (s.st, s.pre)) =
      some (.sync, 0#4) := by decide

/-! The discards (95_test_vectors.md V5). -/

theorem test_discardNotacc0_is_silent :
    after (step { core Config.cfg0 .addr [116] with addr := 0x21#8, idx := 7#3 })
      (fun s => (s.addr, s.st, s.idx, s.cntAddr)) = some (0x42#8, .sync, 0#3, 0) := by decide
theorem test_discardNotacc11_is_silent :
    after (step { core Config.cfg0 .addr [116] with addr := 0x61#8, idx := 7#3 })
      (fun s => (s.addr, s.st, s.idx, s.cntAddr)) = some (0xC2#8, .sync, 0#3, 0) := by decide
theorem test_discardOtheraddr_is_silent :
    after (step { core Config.cfg0 .addr [58] with addr := 0x41#8, idx := 7#3 })
      (fun s => (s.addr, s.st, s.idx, s.cntAddr)) = some (0x83#8, .sync, 0#3, 0) := by decide

/-! The eight entries: `PKT(0x82, 0x80)` to `PKT(0x82, 0x86)` and `PKT(0x82, 0xFF)`, the examples of
45_output_mapper.md R225 to R232, with `OUT_MAP = [2,0,3,1]`; the line's old level is the other one. -/

theorem test_setO0Off_acts :
    after (step { terminator mapped 0x82#8 0x80#8 0x02#8 [58] with outLevel := 0b1111#4 })
      portAndCount = some (some ⟨0#2, 2#2, false⟩, 0b1011#4, 0, .sync) := by decide
theorem test_setO0On_acts :
    after (step { terminator mapped 0x82#8 0x81#8 0x03#8 [58] with outLevel := 0b0000#4 })
      portAndCount = some (some ⟨0#2, 2#2, true⟩, 0b0100#4, 0, .sync) := by decide
theorem test_setO1Off_acts :
    after (step { terminator mapped 0x82#8 0x82#8 0x00#8 [58] with outLevel := 0b1111#4 })
      portAndCount = some (some ⟨1#2, 0#2, false⟩, 0b1110#4, 0, .sync) := by decide
theorem test_setO1On_acts :
    after (step { terminator mapped 0x82#8 0x83#8 0x01#8 [58] with outLevel := 0b0000#4 })
      portAndCount = some (some ⟨1#2, 0#2, true⟩, 0b0001#4, 0, .sync) := by decide
theorem test_setO2Off_acts :
    after (step { terminator mapped 0x82#8 0x84#8 0x06#8 [58] with outLevel := 0b1111#4 })
      portAndCount = some (some ⟨2#2, 3#2, false⟩, 0b0111#4, 0, .sync) := by decide
theorem test_setO2On_acts :
    after (step { terminator mapped 0x82#8 0x85#8 0x07#8 [58] with outLevel := 0b0000#4 })
      portAndCount = some (some ⟨2#2, 3#2, true⟩, 0b1000#4, 0, .sync) := by decide
theorem test_setO3Off_acts :
    after (step { terminator mapped 0x82#8 0x86#8 0x04#8 [58] with outLevel := 0b1111#4 })
      portAndCount = some (some ⟨3#2, 1#2, false⟩, 0b1101#4, 0, .sync) := by decide
theorem test_setO3On_acts :
    after (step { terminator mapped 0x82#8 0xFF#8 0x7D#8 [58] with outLevel := 0b0000#4 })
      portAndCount = some (some ⟨3#2, 1#2, true⟩, 0b0010#4, 0, .sync) := by decide

/-! The checksum row (44_checksum_validator.md R202; 95_test_vectors.md V2, V51). -/

theorem test_checksum_mismatch_suppresses :
    after (step (terminator Config.cfg0 0x82#8 0x83#8 0x00#8 [58])) portAndCount =
      some (none, 0b0000#4, 1, .sync) := by decide
theorem test_checksum_and_terminator_count_two :
    after (step (terminator Config.cfg0 0x82#8 0x83#8 0x00#8 [116])) portAndCount =
      some (none, 0b0000#4, 2, .sync) := by decide
-- the separator table of 95_test_vectors.md: a bad terminator counts 1 and the action still happens
theorem test_bad_terminator_still_acts :
    after (step (terminator Config.cfg0 0x82#8 0x83#8 0x01#8 [116])) portAndCount =
      some (some ⟨1#2, 1#2, true⟩, 0b0010#4, 1, .sync) := by decide
-- 00_scope.md R16: one combined, saturating update
theorem test_counter_saturates :
    after (step { terminator { Config.cfg0 with cntW := 2 } 0x82#8 0x83#8 0x00#8 [116] with cntChk := 2 })
      (fun s => s.cntChk) = some 3 := by decide

/-! Edges without a step (10_state.md R30; 70_reset_and_hazards.md R291). -/

theorem test_reset_beats_duration :
    after (step { terminator Config.cfg0 0x82#8 0x83#8 0x01#8 [] with
      input := [⟨true, true, 58⟩], cntNoise := 7 })
      (fun s => s) = some State.reset := by decide
theorem test_strobe_lasts_one_cycle :
    after (step { core Config.cfg0 .sync [] with
      input := [⟨false, false, 70000⟩], actValid := true, actIndex := 2#2 })
      (fun s => (s.actValid, s.actIndex)) = some (false, 2#2) := by decide

odel's own tests: the words of every row written out from 30_encoding.md and the opcode
table, the refusals of WellFormed and of the decoder, single steps from the spec's examples
(95_test_vectors.md), and a witness for the hypotheses of every statement that has any. -/

namespace Sys2Proof.Tests

open Sys2Proof Sys2Proof.Machine

/-! Small states. -/

/-- The reset state of a configuration, in a decoder state, with durations on the coming edges. -/
def core (cfg : Config) (st : DecState) (ds : List Nat) : State :=
  { State.resetWith cfg (measurements ds) with st := st }

/-- `CFG0` with `OUT_MAP = [2,0,3,1]`, so that a function number and its line differ. -/
def mapped : Config := { Config.cfg0 with outMap := ⟨2#2, 0#2, 3#2, 1#2⟩ }

/-- `CFG0` with `RETRY_CAP = 3`. -/
def cap3 : Config := { Config.cfg0 with retryCap := 3 }

/-- A core that awaits the terminator of the frame of these three bytes. -/
def terminator (cfg : Config) (a c k : Byte) (ds : List Nat) : State :=
  { core cfg .term ds with addr := a, cmd := c, chk := k }

/-- What a function reads off the next state; nothing where there is none. -/
def after {α : Type} (o : Host.Outcome State Fault Refusal) (f : State → α) : Option α :=
  match o with
  | .next s => some (f s)
  | .fault _ => none
  | .refused _ => none

/-- Every pin and register of the action port and `cnt_chk`. -/
def portAndCount (s : State) : Option Action × BitVec 4 × Nat × DecState :=
  (actionPort s, s.outLevel, s.cntChk, s.st)

/-! Decoding: the words are those of the encoding column, bit by bit. -/

theorem test_decode_pulseZero : decode Config.cfg0 0#4 (.duration 100) = .ok (.pulseZero 100) := by decide
theorem test_decode_pulseZero_top : decode Config.cfg0 0#4 (.duration 65535) = .ok (.pulseZero 65535) := by
  decide
theorem test_decode_pulseOne : decode Config.cfg0 0#4 (.duration 99) = .ok (.pulseOne 99) := by decide
theorem test_decode_pulseInvalid : decode Config.cfg0 0#4 (.duration 54) = .ok (.pulseInvalid 54) := by
  decide
theorem test_decode_syncOne : decode Config.cfg0 15#4 (.syncBit true) = .ok .syncOne := by decide
theorem test_decode_syncStart : decode Config.cfg0 14#4 (.syncBit false) = .ok .syncStart := by decide
theorem test_decode_syncIdle : decode Config.cfg0 15#4 (.syncBit false) = .ok .syncIdle := by decide
theorem test_decode_discardNotacc0 :
    decode Config.cfg0 0#4 (.addressByte 0b01000010#8) = .ok (.discardNotacc0 0b1000010#7) := by decide
theorem test_decode_discardNotacc11 :
    decode Config.cfg0 0#4 (.addressByte 0b11000010#8) = .ok (.discardNotacc11 0b000010#6) := by decide
theorem test_decode_discardOtheraddr :
    decode Config.cfg0 0#4 (.addressByte 0b10111111#8) = .ok (.discardOtheraddr 0b111111#6) := by decide
-- `10aaaaaa s xxxxxFFV s kkkkkkkk t`, with other values in every operand field of each row
theorem test_decode_setO0Off :
    decode Config.cfg0 0#4 (.mappedFrame 0b10000010_0_10000000_0_00000010_1#27) =
      .ok (.setO0Off 0b000010#6 false 0b10000#5 false 0b00000010#8 true) := by decide
theorem test_decode_setO0On :
    decode Config.cfg0 0#4 (.mappedFrame 0b10100001_1_00001001_0_10000001_0#27) =
      .ok (.setO0On 0b100001#6 true 0b00001#5 false 0b10000001#8 false) := by decide
theorem test_decode_setO1Off :
    decode Config.cfg0 0#4 (.mappedFrame 0b10010010_0_01000010_1_01000010_1#27) =
      .ok (.setO1Off 0b010010#6 false 0b01000#5 true 0b01000010#8 true) := by decide
theorem test_decode_setO1On :
    decode Config.cfg0 0#4 (.mappedFrame 0b10000010_0_10000011_0_00000001_1#27) =
      .ok (.setO1On 0b000010#6 false 0b10000#5 false 0b00000001#8 true) := by decide
theorem test_decode_setO2Off :
    decode Config.cfg0 0#4 (.mappedFrame 0b10001000_1_10000100_1_11110000_0#27) =
      .ok (.setO2Off 0b001000#6 true 0b10000#5 true 0b11110000#8 false) := by decide
theorem test_decode_setO2On :
    decode Config.cfg0 0#4 (.mappedFrame 0b10000100_0_00010101_0_00001111_1#27) =
      .ok (.setO2On 0b000100#6 false 0b00010#5 false 0b00001111#8 true) := by decide
theorem test_decode_setO3Off :
    decode Config.cfg0 0#4 (.mappedFrame 0b10000001_0_00100110_1_10101010_0#27) =
      .ok (.setO3Off 0b000001#6 false 0b00100#5 true 0b10101010#8 false) := by decide
theorem test_decode_setO3On :
    decode Config.cfg0 0#4 (.mappedFrame 0b10000010_0_11111111_0_01111101_1#27) =
      .ok (.setO3On 0b000010#6 false 0b11111#5 false 0b01111101#8 true) := by decide
theorem test_decode_checksum :
    decode Config.cfg0 0#4 (.checkedFrame 0b01000010_1_10000011_0_00000001_1#27) =
      .ok (.checksum 0x42#8 true 0x83#8 false 0x01#8 true) := by decide

/-! The decoder rejects by name. -/

theorem test_reject_duration_of_17_bits :
    decode Config.cfg0 0#4 (.duration 65536) = .error .durationTooWide := by decide
theorem test_reject_accepted_byte :
    decode Config.cfg0 0#4 (.addressByte 0b10000010#8) = .error .byteAccepted := by decide
theorem test_reject_frame_without_marker :
    decode Config.cfg0 0#4 (.mappedFrame 0b11000010_0_10000011_0_00000001_1#27) =
      .error .notAccessoryFrame := by decide
theorem test_reject_word_of_28_bits : decodeTableWord 32 0x8000000 = none := by decide

/-! WellFormed refuses an ill-formed term, one for each check (30_encoding.md R80, R90, R91). -/

theorem test_illformed_zero_below_threshold : ¬ WellFormed Config.cfg0 0#4 (.pulseZero 99) := by decide
theorem test_illformed_zero_too_wide : ¬ WellFormed Config.cfg0 0#4 (.pulseZero 65536) := by decide
theorem test_illformed_one_below_threshold : ¬ WellFormed Config.cfg0 0#4 (.pulseOne 54) := by decide
theorem test_illformed_one_at_zero_threshold : ¬ WellFormed Config.cfg0 0#4 (.pulseOne 100) := by decide
theorem test_illformed_one_too_wide :
    ¬ WellFormed { Config.cfg0 with durW := 6 } 0#4 (.pulseOne 64) := by decide
theorem test_illformed_invalid_at_threshold : ¬ WellFormed Config.cfg0 0#4 (.pulseInvalid 55) := by decide
theorem test_illformed_invalid_too_wide :
    ¬ WellFormed { Config.cfg0 with durW := 5 } 0#4 (.pulseInvalid 32) := by decide
theorem test_illformed_start_after_nine : ¬ WellFormed Config.cfg0 9#4 .syncStart := by decide
theorem test_illformed_start_after_fifteen : ¬ WellFormed Config.cfg0 15#4 .syncStart := by decide
theorem test_illformed_idle_after_ten : ¬ WellFormed Config.cfg0 10#4 .syncIdle := by decide
theorem test_illformed_idle_after_fourteen : ¬ WellFormed Config.cfg0 14#4 .syncIdle := by decide
theorem test_illformed_otheraddr_is_base : ¬ WellFormed Config.cfg0 0#4 (.discardOtheraddr 2#6) := by decide

/-! Table words, and the step that runs them as the first after reset. -/

theorem test_table_words :
    decodeTableWord 16 100 = some (.pulseZero 100) ∧ decodeTableWord 8 1 = some .syncOne ∧
      decodeTableWord 8 0 = some .syncIdle ∧
      decodeTableWord 8 0x42 = some (.discardNotacc0 0x42#7) ∧
      decodeTableWord 8 0xC0 = some (.discardNotacc11 0#6) ∧
      decodeTableWord 8 0x80 = some (.discardOtheraddr 0#6) ∧
      decodeTableWord 32 0x4000C00 = some (.setO1On 0#6 false 0#5 false 0#8 false) ∧
      decodeTableWord 32 0 = some (.checksum 0#8 false 0#8 false 0#8 false) := by decide

theorem test_placed_set_row_is_run :
    nextEvent (State.reset.withFetchWord 32 0b10000010_0_10000011_0_00000001_1) =
      .run (.setO1On 0b000010#6 false 0b10000#5 false 0b00000001#8 true) := by decide
theorem test_placed_discard_is_run :
    nextEvent (State.reset.withFetchWord 8 0xC5) = .run (.discardNotacc11 0x05#6) := by decide

/-! Witnesses: for each statement with hypotheses, states and operands that meet all of them together,
clause by clause, at the edges of the ranges. -/

/-- A legal duration for each bit: `1` is 58 ticks and `0` is 116 (95_test_vectors.md, Conventions). -/
def ticks (bs : List Bit) : List Nat := bs.map fun b => if b then 58 else 116

theorem ticks_spell : ∀ bs : List Bit, SpellsBits Config.cfg0 (ticks bs) bs
  | [] => trivial
  | true :: bs => ⟨by decide, ticks_spell bs⟩
  | false :: bs => ⟨by decide, ticks_spell bs⟩

theorem witness_SyncOneCountsPreamble :
    (core Config.cfg0 .sync []).st = .sync ∧
      ({ core Config.cfg0 .sync [] with pre := 15#4 } : State).st = .sync := by decide

/-- A core in SYNC with this preamble count. -/
def inPreamble (n : BitVec 4) (ds : List Nat) : State := { core Config.cfg0 .sync ds with pre := n }

theorem witness_SyncStartOpensFrame :
    ((inPreamble 10#4 []).st = .sync ∧ 10 ≤ (inPreamble 10#4 []).pre.toNat ∧
      (inPreamble 10#4 []).pre.toNat ≤ 14) ∧
    ((inPreamble 14#4 []).st = .sync ∧ 10 ≤ (inPreamble 14#4 []).pre.toNat ∧
      (inPreamble 14#4 []).pre.toNat ≤ 14) := by decide

theorem witness_SyncIdleClearsPreamble :
    ((inPreamble 9#4 []).st = .sync ∧ (inPreamble 9#4 []).pre.toNat < 10) ∧
    ((inPreamble 15#4 []).st = .sync ∧ 14 < (inPreamble 15#4 []).pre.toNat) := by decide

theorem witness_TableHasOneRowForEachInput :
    TableRow (core Config.cfg0 .ib1 []) (.bit true)
      { withBit (core Config.cfg0 .ib1 []) with
        st := .cmd, cntAddr := counted (core Config.cfg0 .ib1 []) 0 1 } :=
  .ib1One rfl

theorem witness_PulseInvalidRetriesOrGivesUp :
    ({ core cap3 .cmd [] with retry := 1 } : State).retry + 1 < cap3.retryCap ∧
      cap3.retryCap ≤ ({ core cap3 .cmd [] with retry := 2 } : State).retry + 1 := by decide

/-- A core that has taken the first seven bits of an address byte. -/
def sevenBits (r : Byte) : State := { core Config.cfg0 .addr [] with addr := r, idx := 7#3 }

theorem witness_NotAccessoryZeroByteIsDiscarded :
    (sevenBits 0xA1#8).st = .addr ∧ (sevenBits 0xA1#8).idx = 7#3 ∧
      (sevenBits 0xA1#8).addr.extractLsb' 0 7 = ((0b0#1 ++ 0x42#7 : Byte)).extractLsb' 1 7 := by decide

theorem witness_NotAccessoryElevenByteIsDiscarded :
    (sevenBits 0x61#8).st = .addr ∧ (sevenBits 0x61#8).idx = 7#3 ∧
      (sevenBits 0x61#8).addr.extractLsb' 0 7 = ((0b11#2 ++ 2#6 : Byte)).extractLsb' 1 7 := by decide

theorem witness_OtherAddressIsDiscarded :
    (sevenBits 0x41#8).st = .addr ∧ (sevenBits 0x41#8).idx = 7#3 ∧
      (3#6).toNat ≠ (sevenBits 0x41#8).cfg.baseAddr ∧
      (sevenBits 0x41#8).addr.extractLsb' 0 7 = ((0b10#2 ++ 3#6 : Byte)).extractLsb' 1 7 := by decide

/-- The frame `0x82`, `cmd`, `0x82 XOR cmd` at its terminator, the hypotheses of a SET row with `cmd`. -/
abbrev GoodFrame (x : BitVec 5) (r : BitVec 3) : Prop :=
  let c : Byte := x ++ r;
  let s := terminator mapped 0x82#8 c (0x82#8 ^^^ c) [];
  s.st = .term ∧ s.addr = 0b10#2 ++ 2#6 ∧ s.chk = 0x82#8 ^^^ c ∧ s.cmd = x ++ r ∧
    0x82#8 ^^^ c = s.addr ^^^ s.cmd

theorem witness_SetOutput0DispatchesItsAction : GoodFrame 0b10000#5 0#3 ∧ GoodFrame 0b00000#5 1#3 := by
  decide
theorem witness_SetOutput1DispatchesItsAction : GoodFrame 0b10000#5 2#3 ∧ GoodFrame 0b00000#5 3#3 := by
  decide
theorem witness_SetOutput2DispatchesItsAction : GoodFrame 0b10000#5 4#3 ∧ GoodFrame 0b11111#5 5#3 := by
  decide
theorem witness_SetOutput3DispatchesItsAction : GoodFrame 0b10000#5 6#3 ∧ GoodFrame 0b11111#5 7#3 := by
  decide

/-- The same frame with a checksum that is wrong in one bit. -/
abbrev BadFrame (x : BitVec 5) (r : BitVec 3) : Prop :=
  let c : Byte := x ++ r;
  let s := terminator mapped 0x82#8 c (0x83#8 ^^^ c) [];
  s.st = .term ∧ s.addr = 0b10#2 ++ 2#6 ∧ s.chk = 0x83#8 ^^^ c ∧ s.cmd = x ++ r ∧
    0x83#8 ^^^ c ≠ s.addr ^^^ s.cmd

theorem witness_MismatchSuppressesEverySetRow :
    BadFrame 16#5 0#3 ∧ BadFrame 16#5 1#3 ∧ BadFrame 16#5 2#3 ∧ BadFrame 16#5 3#3 ∧
      BadFrame 16#5 4#3 ∧ BadFrame 16#5 5#3 ∧ BadFrame 16#5 6#3 ∧ BadFrame 16#5 7#3 := by decide

/-- A core at the terminator of V1's frame, with the checksum byte given. -/
def v1 (k : Byte) (ds : List Nat) : State := terminator Config.cfg0 0x82#8 0x83#8 k ds

theorem witness_ChecksumRowDecidesTheStep :
    ((v1 0x00#8 []).st = .term ∧ (v1 0x00#8 []).addr = 0x82#8 ∧ (v1 0x00#8 []).cmd = 0x83#8 ∧
      (v1 0x00#8 []).chk = 0x00#8 ∧ 0x00#8 ≠ 0x82#8 ^^^ 0x83#8) ∧
    ((v1 0x01#8 []).st = .term ∧ (v1 0x01#8 []).addr = 0x82#8 ∧ (v1 0x01#8 []).cmd = 0x83#8 ∧
      (v1 0x01#8 []).chk = 0x01#8 ∧ 0x01#8 = 0x82#8 ^^^ 0x83#8) := by decide

theorem witness_GoodChecksumCountsNothing :
    let s := { v1 0x01#8 [] with cntChk := 2 ^ 32 - 1 };
    CountersInRange s ∧ s.st = .term ∧ s.chk = s.addr ^^^ s.cmd := by decide

theorem witness_TerminatorStepReturnsToSync : (v1 0x00#8 []).st = .term := by decide

theorem witness_WrongTerminatorCountsOnceMore :
    ({ v1 0x00#8 [] with cntChk := 2 ^ 32 - 2 } : State).st = .term := by decide

theorem witness_ChecksumFlagIsNotAParity : (0x03#8 : Byte) ≠ 0#8 := by decide

theorem witness_ClassifierRanges : Config.cfg0.tOne ≤ Config.cfg0.tZero := by decide

/-- A legal configuration, a duration of `DUR_W` bits on the pins, and the bit it spells. -/
abbrev Measured (s : State) (d : Nat) (ps : List Pins) (b : Bit) : Prop :=
  s.cfg.Legal ∧ s.input = measurement d :: ps ∧ d < 2 ^ s.cfg.durW ∧ spelledBit s.cfg d = some b

theorem witness_StepRunsDecodedInstruction :
    (let s := inPreamble 10#4 [100];
      Measured s 100 [] false ∧ s.st = .sync ∧
        decode s.cfg s.pre (.duration 100) = .ok (.pulseZero 100) ∧
        decode s.cfg s.pre (.syncBit false) = .ok .syncStart) ∧
    (let s := { core Config.cfg0 .addr [58] with addr := 0x41#8, idx := 7#3 };
      Measured s 58 [] true ∧ s.st = .addr ∧ s.idx = 7#3 ∧
        decode s.cfg s.pre (.addressByte (shiftIn s.addr true)) = .ok (.discardOtheraddr 3#6)) ∧
    (let s := v1 0x01#8 [58];
      Measured s 58 [] true ∧ s.st = .term ∧
        decode s.cfg s.pre (.mappedFrame (frameBody s.addr true s.cmd false s.chk true)) =
          .ok (.setO1On 2#6 true 16#5 false 0x01#8 true) ∧
        decode s.cfg s.pre (.checkedFrame (frameBody s.addr true s.cmd false s.chk true)) =
          .ok (.checksum 0x82#8 true 0x83#8 false 0x01#8 true)) :=
  ⟨by decide, by decide, by decide⟩

theorem witness_StepFollowsTable :
    Measured (inPreamble 9#4 [65535]) 65535 [] false ∧
      ((core Config.cfg0 .cmd [0]).cfg.Legal ∧ (core Config.cfg0 .cmd [0]).input = measurement 0 :: [] ∧
        0 < 2 ^ (core Config.cfg0 .cmd [0]).cfg.durW) := by decide

theorem witness_PlacedTableWordRunsNext :
    State.reset.cfg.Legal ∧
      tableSymbol 32 0x4000C00 = .ok (.mappedFrame 0x4000C00#27) ∧
      decode State.reset.cfg 0#4 (.mappedFrame 0x4000C00#27) =
        .ok (.setO1On 0#6 false 0#5 false 0#8 false) ∧
      tableSymbol 8 0x80 = .ok (.addressByte 0x80#8) ∧
      decode State.reset.cfg 0#4 (.addressByte 0x80#8) = .ok (.discardOtheraddr 0#6) := by decide

theorem witness_ResetEdgeBeatsDuration :
    let s := { v1 0x01#8 [] with input := [⟨true, true, 58⟩] };
    s.cfg.Legal ∧ s.input = [⟨true, true, 58⟩] ∧ (⟨true, true, 58⟩ : Pins).rst = true := by decide

theorem witness_EdgeWithoutDurationHoldsState :
    (let s := { v1 0x01#8 [] with input := [⟨false, false, 70000⟩] };
      s.cfg.Legal ∧ s.input = [⟨false, false, 70000⟩] ∧
        (⟨false, false, 70000⟩ : Pins).rst = false ∧ (⟨false, false, 70000⟩ : Pins).durValid = false) ∧
    ((v1 0x01#8 []).cfg.Legal ∧ (v1 0x01#8 []).input = []) := by decide

theorem witness_IllegalConfigurationHasNoRun :
    ¬ ({ core Config.cfg0 .sync [58] with cfg := { Config.cfg0 with tOne := 100 } } : State).cfg.Legal := by
  decide

/-- Each line of 00_scope.md R13 can be broken. -/
theorem test_illegal_configurations :
    ¬ ({ Config.cfg0 with tOne := 0 } : Config).Legal ∧ ¬ ({ Config.cfg0 with tOne := 100 } : Config).Legal ∧
      ¬ ({ Config.cfg0 with tZero := 65536 } : Config).Legal ∧
      ¬ ({ Config.cfg0 with durW := 0 } : Config).Legal ∧ ¬ ({ Config.cfg0 with cntW := 0 } : Config).Legal ∧
      ¬ ({ Config.cfg0 with baseAddr := 0 } : Config).Legal ∧
      ¬ ({ Config.cfg0 with baseAddr := 64 } : Config).Legal ∧
      ¬ ({ Config.cfg0 with retryCap := 0 } : Config).Legal ∧
      ¬ ({ Config.cfg0 with outMap := ⟨0#2, 1#2, 2#2, 0#2⟩ } : Config).Legal :=
  ⟨by decide, by decide, by decide, by decide, by decide, by decide, by decide, by decide, by decide⟩

theorem witness_NoInputStopsTheCore :
    (core Config.cfg0 .sync [65535]).cfg.Legal ∧
      (∃ t, step (core Config.cfg0 .sync [65535]) = .next t) ∧
      nextEvent (core Config.cfg0 .sync [65536]) = .refuse .durationTooWide :=
  ⟨by decide, ⟨_, rfl⟩, by decide⟩

theorem witness_EveryResetStateMeetsTheInvariant :
    mapped.Legal ∧ ∀ p ∈ [measurement 65535, ⟨true, false, 0⟩], p.Fits mapped := by decide

/-- A core in CMD, past the filter, with two bits of the command byte taken and a long run of noise behind it. -/
def inCommand (ds : List Nat) : State :=
  { core Config.cfg0 .cmd ds with addr := 0x82#8, cmd := 0x41#8, idx := 2#3, retry := 999, cntNoise := 5 }

theorem witness_StepKeepsInvariant :
    (Inv (inCommand [58]) ∧ ∃ t, step (inCommand [58]) = .next t) ∧
      (Inv (v1 0x01#8 [58]) ∧ ∃ t, step (v1 0x01#8 [58]) = .next t) :=
  ⟨⟨by decide, _, rfl⟩, ⟨by decide, _, rfl⟩⟩

theorem witness_ConfigurationNeverChanges :
    ∃ t, step { inCommand [] with input := [⟨true, false, 0⟩] } = .next t := ⟨_, rfl⟩

theorem witness_EdgeUsesOneSample : ∃ t, step (inCommand [20, 58]) = .next t := ⟨_, rfl⟩

/-- The coming sample is no reset. -/
theorem not_reset {s : State} {d : Nat} {qs : List Pins} (h : s.input = measurement d :: qs) :
    ∀ p ps, s.input = p :: ps → p.rst = false := by
  intro p ps hp
  rw [h] at hp
  cases hp
  rfl

theorem witness_CountersNeverDecrease :
    CountersInRange (inCommand [20]) ∧ (∀ p ps, (inCommand [20]).input = p :: ps → p.rst = false) ∧
      ∃ t, step (inCommand [20]) = .next t :=
  ⟨by decide, not_reset rfl, _, rfl⟩

theorem witness_CountersCountTheirEvents :
    (inCommand [54]).input = measurement 54 :: [] ∧ (∃ t, step (inCommand [54]) = .next t) ∧
      (v1 0x00#8 [100]).input = measurement 100 :: [] ∧ ∃ t, step (v1 0x00#8 [100]) = .next t :=
  ⟨rfl, ⟨_, rfl⟩, rfl, ⟨_, rfl⟩⟩

theorem witness_OutputsChangeOnlyByAction :
    ((∀ p ps, (v1 0x01#8 [58]).input = p :: ps → p.rst = false) ∧
      ∃ t, step (v1 0x01#8 [58]) = .next t ∧ t.actValid = true) ∧
    ((∀ p ps, (v1 0x00#8 [58]).input = p :: ps → p.rst = false) ∧
      ∃ t, step (v1 0x00#8 [58]) = .next t ∧ t.actValid = false) :=
  ⟨⟨not_reset rfl, _, rfl, rfl⟩, ⟨not_reset rfl, _, rfl, rfl⟩⟩

theorem witness_BytesWrittenOnlyInTheirState :
    (∀ p ps, (inCommand [58]).input = p :: ps → p.rst = false) ∧ (∃ t, step (inCommand [58]) = .next t) ∧
      (inCommand [58]).st ≠ .addr ∧ (inCommand [58]).st ≠ .chk ∧
      (∀ p ps, (v1 0x01#8 [58]).input = p :: ps → p.rst = false) ∧ (∃ t, step (v1 0x01#8 [58]) = .next t) ∧
      (v1 0x01#8 [58]).st ≠ .cmd :=
  ⟨not_reset rfl, ⟨_, rfl⟩, by decide, by decide, not_reset rfl, ⟨_, rfl⟩, by decide⟩

theorem witness_PreambleUntouchedInsidePacket :
    (inCommand [58]).st ≠ .sync ∧ (inCommand [58]).st ≠ .unused ∧ ∃ t, step (inCommand [58]) = .next t :=
  ⟨by decide, by decide, _, rfl⟩

theorem witness_EntryToSyncClearsPreamble :
    (v1 0x01#8 [58]).st ≠ .sync ∧ (v1 0x01#8 [58]).st ≠ .unused ∧
      ∃ t, step (v1 0x01#8 [58]) = .next t ∧ t.st = .sync :=
  ⟨by decide, by decide, _, rfl, rfl⟩

theorem witness_DecoderStateMovesByTheTable :
    ((inCommand [58]).input = measurement 58 :: [] ∧ Spells (inCommand [58]).cfg 58 true ∧
      (inCommand [58]).st.inByte = true ∧ (inCommand [58]).idx ≠ 7#3 ∧
        ∃ t, step (inCommand [58]) = .next t) ∧
    (let s := { inCommand [100] with idx := 7#3 };
      s.input = measurement 100 :: [] ∧ Spells s.cfg 100 false ∧ s.st.inByte = true ∧ s.idx = 7#3 ∧
        ∃ t, step s = .next t) :=
  ⟨⟨rfl, by decide, by decide, by decide, _, rfl⟩, ⟨rfl, by decide, by decide, by decide, _, rfl⟩⟩

theorem witness_NoiseIsAbsorbed :
    let s := { inCommand [54, 55] with retry := 998 };
    s.cfg.Legal ∧ s.retry + 1 < s.cfg.retryCap ∧ s.input = measurement 54 :: measurement 55 :: [] ∧
      SpellsNoise s.cfg 54 ∧ Spells s.cfg 55 true ∧
      ∃ t, step { s with input := measurement 55 :: [] } = .next t :=
  ⟨by decide, by decide, rfl, by decide, by decide, _, rfl⟩

theorem witness_GiveUpAtTheCap :
    (let s := core cap3 .cmd [20, 54];
      s.cfg.Legal ∧ s.input = measurements [20, 54] ++ [] ∧ (∀ d ∈ [20, 54], SpellsNoise s.cfg d) ∧
        s.retry + [20, 54].length < s.cfg.retryCap) ∧
    (let s := core cap3 .cmd [20, 54, 0];
      s.cfg.Legal ∧ s.input = measurements [20, 54, 0] ++ [] ∧ (∀ d ∈ [20, 54, 0], SpellsNoise s.cfg d) ∧
        s.retry + [20, 54, 0].length = s.cfg.retryCap) := by decide

theorem witness_PreambleRunDecidesFrameStart :
    let s := inPreamble 3#4 [58, 99, 100];
    s.cfg.Legal ∧ s.st = .sync ∧ s.input = measurements ([58, 99] ++ [100]) ++ [] ∧
      SpellsBits s.cfg [58, 99] (List.replicate 2 true) ∧ Spells s.cfg 100 false :=
  ⟨by decide, rfl, rfl, ⟨by decide, by decide, trivial⟩, by decide⟩

theorem witness_EightBitsFillCmdAndChk :
    (let s := core Config.cfg0 .cmd (ticks (wireBits 0xA5#8));
      s.cfg.Legal ∧ s.idx = 0#3 ∧ s.input = measurements (ticks (wireBits 0xA5#8)) ++ [] ∧
        SpellsBits s.cfg (ticks (wireBits 0xA5#8)) (wireBits 0xA5#8) ∧ s.st = .cmd) ∧
    (let s := core Config.cfg0 .chk (ticks (wireBits 0x01#8));
      s.cfg.Legal ∧ s.idx = 0#3 ∧ s.input = measurements (ticks (wireBits 0x01#8)) ++ [] ∧
        SpellsBits s.cfg (ticks (wireBits 0x01#8)) (wireBits 0x01#8) ∧ s.st = .chk) :=
  ⟨⟨by decide, rfl, rfl, ticks_spell _, rfl⟩, ⟨by decide, rfl, rfl, ticks_spell _, rfl⟩⟩

theorem witness_AddressByteIsFilteredWhole :
    (let s := core Config.cfg0 .addr (ticks (wireBits 0x82#8));
      s.cfg.Legal ∧ s.st = .addr ∧ s.idx = 0#3 ∧ s.input = measurements (ticks (wireBits 0x82#8)) ++ [] ∧
        SpellsBits s.cfg (ticks (wireBits 0x82#8)) (wireBits 0x82#8) ∧
        ((0x82#8).extractLsb' 6 2 = 0b10#2 ∧ ((0x82#8).extractLsb' 0 6).toNat = s.cfg.baseAddr)) ∧
    (let s := core Config.cfg0 .addr (ticks (wireBits 0xC2#8));
      s.cfg.Legal ∧ s.st = .addr ∧ s.idx = 0#3 ∧ s.input = measurements (ticks (wireBits 0xC2#8)) ++ [] ∧
        SpellsBits s.cfg (ticks (wireBits 0xC2#8)) (wireBits 0xC2#8) ∧
        ¬((0xC2#8).extractLsb' 6 2 = 0b10#2 ∧ ((0xC2#8).extractLsb' 0 6).toNat = s.cfg.baseAddr)) :=
  ⟨⟨by decide, rfl, rfl, rfl, ticks_spell _, by decide⟩, ⟨by decide, rfl, rfl, rfl, ticks_spell _, by decide⟩⟩

/-- The 27 durations of V1's frame body with this checksum byte and terminator. -/
def v1Body (k : Byte) (t : Bit) : List Nat := ticks (frameWireBits 0x82#8 true 0x83#8 false k t)

theorem witness_FrameBodyRunsToItsEnd :
    (let s := core Config.cfg0 .addr (v1Body 0x01#8 false);
      s.cfg.Legal ∧ s.st = .addr ∧ s.idx = 0#3 ∧ passesFilter s.cfg 0x82#8 = true ∧
        s.input = measurements (v1Body 0x01#8 false) ++ [] ∧
        SpellsBits s.cfg (v1Body 0x01#8 false) (frameWireBits 0x82#8 true 0x83#8 false 0x01#8 false) ∧
        0x01#8 = 0x82#8 ^^^ 0x83#8) ∧
    (let s := core Config.cfg0 .addr (v1Body 0x00#8 true);
      s.cfg.Legal ∧ s.st = .addr ∧ s.idx = 0#3 ∧ passesFilter s.cfg 0x82#8 = true ∧
        s.input = measurements (v1Body 0x00#8 true) ++ [] ∧
        SpellsBits s.cfg (v1Body 0x00#8 true) (frameWireBits 0x82#8 true 0x83#8 false 0x00#8 true) ∧
        0x00#8 ≠ 0x82#8 ^^^ 0x83#8) :=
  ⟨⟨by decide, rfl, rfl, by decide, rfl, ticks_spell _, by decide⟩,
    ⟨by decide, rfl, rfl, by decide, rfl, ticks_spell _, by decide⟩⟩

theorem witness_ActionsAreAtLeast38EdgesApart :
    ∃ t u v, step (v1 0x01#8 [58, 58]) = .next t ∧ t.actValid = true ∧
      runEdges 1 t = .next u ∧ runEdges 37 t = .next v :=
  ⟨_, _, _, rfl, rfl, rfl, rfl⟩

theorem witness_StaleByteBitsReachNoOutput :
    Inv (inCommand [58]) ∧
      SameButStaleBytes (inCommand [58]) { inCommand [58] with cmd := 0xFD#8, chk := 0xFF#8 } ∧
      inCommand [58] ≠ { inCommand [58] with cmd := 0xFD#8, chk := 0xFF#8 } :=
  ⟨by decide, ⟨rfl, rfl, by intro i hi; change i < 2 at hi; interval_cases i <;> rfl, trivial⟩, by decide⟩

theorem witness_UnusedCodeActsAsSync :
    let s := core Config.cfg0 .unused [100];
    s.cfg.Legal ∧ s.st = .unused ∧ s.input = measurement 100 :: [] ∧ Spells s.cfg 100 false := by decide

theorem witness_OutMapReachesEachLineOnce : Config.cfg0.Legal ∧ mapped.Legal := by decide

theorem witness_AddressZeroNeverPasses :
    ({ Config.cfg0 with baseAddr := 1 } : Config).Legal ∧
      ({ Config.cfg0 with baseAddr := 63 } : Config).Legal := by
  decide

theorem witness_DecodeOfEncode :
    Config.cfg0.Legal ∧ WellFormed Config.cfg0 0#4 (.pulseZero 100) ∧
      WellFormed Config.cfg0 0#4 (.pulseOne 55) ∧ WellFormed Config.cfg0 0#4 (.pulseInvalid 0) ∧
      WellFormed Config.cfg0 10#4 .syncStart ∧ WellFormed Config.cfg0 15#4 .syncIdle ∧
      WellFormed Config.cfg0 0#4 (.discardOtheraddr 63#6) ∧
      WellFormed Config.cfg0 0#4 (.setO3On 0#6 true 31#5 true 0xFF#8 true) := by decide

theorem witness_EncodeOfDecode :
    decode Config.cfg0 14#4 (.syncBit false) = .ok .syncStart ∧
      decode Config.cfg0 0#4 (.addressByte 0xFF#8) = .ok (.discardNotacc11 63#6) := by decide

theorem witness_DecodeGivesWellFormed :
    decode Config.cfg0 0#4 (.duration 65535) = .ok (.pulseZero 65535) ∧
      decode Config.cfg0 0#4 (.mappedFrame 0x5FFFFFF#27) =
        .ok (.setO3On 63#6 true 31#5 true 0xFF#8 true) := by decide

theorem witness_RetryFitsItsRegister :
    ({ Config.cfg0 with retryCap := 1 } : Config).Legal ∧ Config.cfg0.Legal := by decide

end Sys2Proof.Tests
end

section
/-! SUPPORT. Every edge is one branch of the step function of R162, chosen by the bit that completes the
row. The decoder fixes that bit, so any row it reads from the edge's symbols runs (00_scope.md R17;
43_packet_decoder.md R162). -/

namespace Sys2Proof.Machine

/-! The meaning of a row: the branch of R162 for the bit that completes it. -/

/-- The step of R162 on a classified bit, or on noise where there is none. -/
def consumeClassified : Option Bit → State → State
  | some b, s => consumeBit b s
  | none, s => consumeInvalid s

@[simp] theorem consumeClassified_some (b : Bit) (s : State) :
    consumeClassified (some b) s = consumeBit b s := rfl

@[simp] theorem consumeClassified_none (s : State) :
    consumeClassified none s = consumeInvalid s := rfl

theorem durationStep_eq_consumeClassified (d : Nat) (s : State) :
    durationStep d s = consumeClassified (spelledBit s.cfg d) s := by
  unfold durationStep spelledBit
  cases classify s.cfg d <;> rfl

/-! The sync rows. -/

theorem observe_false_of_inStartRange {s : State} (h : InStartRange s.pre) :
    observe false s = frameStart s := if_pos h

theorem observe_false_of_not_inStartRange {s : State} (h : ¬ InStartRange s.pre) :
    observe false s = idleZero s := if_neg h

theorem execSyncOne_eq (s : State) : execSyncOne s = .next (consumeBit true s) := by
  unfold execSyncOne
  split
  next hs => rw [consumeBit_of_inSync true hs]; rfl
  next => rfl

theorem execSyncStart_eq (s : State) : execSyncStart s = .next (consumeBit false s) := by
  unfold execSyncStart
  split
  next h =>
    obtain ⟨hs, hpre⟩ := h
    rw [consumeBit_of_inSync false hs, observe_false_of_inStartRange (s := bitFetched s) hpre]
  next => rfl

theorem execSyncIdle_eq (s : State) : execSyncIdle s = .next (consumeBit false s) := by
  unfold execSyncIdle
  split
  next h =>
    obtain ⟨hs, hpre⟩ := h
    rw [consumeBit_of_inSync false hs, observe_false_of_not_inStartRange (s := bitFetched s) hpre]
  next => rfl

/-! The discards: the last bit of a byte that the filter rejects. -/

theorem notAccessoryByte0_lastBit (x : BitVec 7) :
    (notAccessoryByte0 x).getLsbD 0 = x.getLsbD 0 := by
  simp only [notAccessoryByte0, BitVec.getLsbD_append]
  simp

theorem notAccessoryByte11_lastBit (x : BitVec 6) :
    (notAccessoryByte11 x).getLsbD 0 = x.getLsbD 0 := by
  simp only [notAccessoryByte11, BitVec.getLsbD_append]
  simp

theorem accessoryByte_lastBit (a : BitVec 6) : (accessoryByte a).getLsbD 0 = a.getLsbD 0 := by
  simp only [accessoryByte, BitVec.getLsbD_append]
  simp

/-- The marker test reads bits 7 and 6 of the address byte (30_encoding.md R84). -/
theorem markerOk_iff (a : Byte) : markerOk a = true ↔ a.getLsbD 7 = true ∧ a.getLsbD 6 = false := by
  revert a; decide

theorem markerOk_notAccessoryByte0 (x : BitVec 7) : markerOk (notAccessoryByte0 x) = false := by
  rw [← Bool.not_eq_true, markerOk_iff]
  simp only [notAccessoryByte0, BitVec.getLsbD_append]
  simp

theorem markerOk_notAccessoryByte11 (x : BitVec 6) : markerOk (notAccessoryByte11 x) = false := by
  rw [← Bool.not_eq_true, markerOk_iff]
  simp only [notAccessoryByte11, BitVec.getLsbD_append]
  simp

theorem passesFilter_of_not_markerOk (cfg : Config) {a : Byte} (h : markerOk a = false) :
    passesFilter cfg a = false := by
  simp [passesFilter, h]

theorem passesFilter_accessoryByte_of_ne {cfg : Config} {a : BitVec 6} (h : a.toNat ≠ cfg.baseAddr) :
    passesFilter cfg (accessoryByte a) = false := by
  simp [passesFilter, accessoryAddress, accessoryByte_low, h]

/-- Taking the last bit of an address byte that the filter rejects is discarding that byte. -/
theorem discardByte_eq_consumeBit {s : State} {a : Byte} (ha : awaitsLastBitOf s a = true)
    (hf : passesFilter s.cfg a = false) : discardByte a s = consumeBit (a.getLsbD 0) s := by
  obtain ⟨hst, hidx, hshift⟩ := (awaitsLastBitOf_iff s a).1 ha
  rw [consumeBit_of_addr _ hst]
  rcases addrBit_cases (a.getLsbD 0) (bitFetched s) with ⟨hne, -⟩ | ⟨-, hp, -⟩ | ⟨-, -, h⟩
  · exact absurd hidx hne
  · rw [bitFetched_cfg, bitFetched_addr, hshift, hf] at hp
    cases hp
  · rw [h, bitFetched_addr, hshift]
    rfl

theorem execDiscardNotacc0_eq (x : BitVec 7) (s : State) :
    execDiscardNotacc0 x s = .next (consumeBit (x.getLsbD 0) s) := by
  unfold execDiscardNotacc0
  split
  next ha =>
    rw [discardByte_eq_consumeBit ha (passesFilter_of_not_markerOk _ (markerOk_notAccessoryByte0 x)),
      notAccessoryByte0_lastBit]
  next => rfl

theorem execDiscardNotacc11_eq (x : BitVec 6) (s : State) :
    execDiscardNotacc11 x s = .next (consumeBit (x.getLsbD 0) s) := by
  unfold execDiscardNotacc11
  split
  next ha =>
    rw [discardByte_eq_consumeBit ha (passesFilter_of_not_markerOk _ (markerOk_notAccessoryByte11 x)),
      notAccessoryByte11_lastBit]
  next => rfl

theorem execDiscardOtheraddr_eq (a : BitVec 6) (s : State) :
    execDiscardOtheraddr a s = .next (consumeBit (a.getLsbD 0) s) := by
  unfold execDiscardOtheraddr
  split
  next h =>
    obtain ⟨ha, hne⟩ := h
    rw [discardByte_eq_consumeBit ha (passesFilter_accessoryByte_of_ne hne), accessoryByte_lastBit]
  next => rfl

/-! The frame rows: the terminator of the frame that the registers hold. -/

/-- The function number of a table row's command byte is the row's upper two bits (45_output_mapper.md
R222). -/
theorem functionNumber_commandByte (x : BitVec 5) (row : BitVec 3) :
    functionNumber (commandByte x row) = row.extractLsb' 1 2 := by
  refine BitVec.eq_of_getLsbD_eq fun i hi => ?_
  simp only [functionNumber, commandByte, BitVec.getLsbD_extractLsb', BitVec.getLsbD_append]
  interval_cases i <;> simp

/-- The value of a table row's command byte is the row's lowest bit (45_output_mapper.md R222). -/
theorem desiredValue_commandByte (x : BitVec 5) (row : BitVec 3) :
    desiredValue (commandByte x row) = row.getLsbD 0 := by
  simp only [desiredValue, commandByte, BitVec.getLsbD_append]
  simp

/-- A frame row for the action that the held command byte `c` asks for is the step on its terminator,
whether or not the registers hold the row's frame. -/
theorem frameRow_eq_consumeBit (a c k : Byte) (t : Bit) (s : State) :
    (if awaitsTerminatorOf s a c k then
      (.next (terminate (functionNumber c) (desiredValue c) t (bitFetched s)) :
        Host.Outcome State Fault Refusal)
    else .next (consumeBit t s)) = .next (consumeBit t s) := by
  split
  next h =>
    obtain ⟨hst, -, rfl, -⟩ := (awaitsTerminatorOf_iff s a c k).1 h
    rw [consumeBit_of_term t hst]
  next => rfl

/-- A SET row of the action that its three table bits name is the step on its terminator. -/
theorem setRow_eq_consumeBit (row : BitVec 3) (a : BitVec 6) (x : BitVec 5) (k : Byte) (t : Bit)
    (s : State) :
    (if awaitsTerminatorOf s (accessoryByte a) (commandByte x row) k then
      (.next (terminate (row.extractLsb' 1 2) (row.getLsbD 0) t (bitFetched s)) :
        Host.Outcome State Fault Refusal)
    else .next (consumeBit t s)) = .next (consumeBit t s) := by
  rw [← functionNumber_commandByte x row, ← desiredValue_commandByte x row]
  exact frameRow_eq_consumeBit _ _ k t s

/-- Every row's meaning is the branch of R162 for the bit that completes the row. -/
theorem exec_eq_consumeClassified (i : Instr) (s : State) :
    exec i s = .next (consumeClassified (lastBit i) s) := by
  cases i with
  | pulseZero d => rfl
  | pulseOne d => rfl
  | pulseInvalid d => rfl
  | syncOne => exact execSyncOne_eq s
  | syncStart => exact execSyncStart_eq s
  | syncIdle => exact execSyncIdle_eq s
  | discardNotacc0 x => exact execDiscardNotacc0_eq x s
  | discardNotacc11 x => exact execDiscardNotacc11_eq x s
  | discardOtheraddr a => exact execDiscardOtheraddr_eq a s
  | setO0Off a s1 x s2 k t => exact setRow_eq_consumeBit 0#3 a x k t s
  | setO0On a s1 x s2 k t => exact setRow_eq_consumeBit 1#3 a x k t s
  | setO1Off a s1 x s2 k t => exact setRow_eq_consumeBit 2#3 a x k t s
  | setO1On a s1 x s2 k t => exact setRow_eq_consumeBit 3#3 a x k t s
  | setO2Off a s1 x s2 k t => exact setRow_eq_consumeBit 4#3 a x k t s
  | setO2On a s1 x s2 k t => exact setRow_eq_consumeBit 5#3 a x k t s
  | setO3Off a s1 x s2 k t => exact setRow_eq_consumeBit 6#3 a x k t s
  | setO3On a s1 x s2 k t => exact setRow_eq_consumeBit 7#3 a x k t s
  | checksum a s1 c s2 k t => exact frameRow_eq_consumeBit a c k t s

/-! The decoder: which bit completes the row that a block reads from its symbol. -/

/-- The bit that completes a symbol as it arrives; none for a duration that is noise. -/
def completingBit (cfg : Config) : Symbol → Option Bit
  | .duration d => spelledBit cfg d
  | .syncBit b => some b
  | .addressByte a => some (a.getLsbD 0)
  | .mappedFrame f => some (frameT f)
  | .checkedFrame f => some (frameT f)

/-- What the classifier reads from a duration: the duration has DUR_W bits, and the pulse row is
completed by the bit the duration spells. -/
theorem decodeDuration_ok {cfg : Config} {d : Nat} {i : Instr} (h : decodeDuration cfg d = .ok i) :
    d < 2 ^ cfg.durW ∧ lastBit i = spelledBit cfg d := by
  unfold decodeDuration at h
  split at h
  next hd =>
    refine ⟨hd, ?_⟩
    unfold spelledBit
    cases hc : classify cfg d <;> (rw [hc] at h; cases h; rfl)
  next => cases h

theorem lastBit_decodeSyncBit (pre : BitVec 4) (b : Bit) : lastBit (decodeSyncBit pre b) = some b := by
  cases b
  · by_cases h : InStartRange pre
    · rw [show decodeSyncBit pre false = .syncStart from if_pos h]; rfl
    · rw [show decodeSyncBit pre false = .syncIdle from if_neg h]; rfl
  · rfl

theorem lastBit_of_decodeAddressByte {cfg : Config} {a : Byte} {i : Instr}
    (h : decodeAddressByte cfg a = .ok i) : lastBit i = some (a.getLsbD 0) := by
  unfold decodeAddressByte at h
  split_ifs at h <;> cases h <;> simp [lastBit]

theorem lastBit_of_decodeMappedFrame {f : FrameBody} {i : Instr} (h : decodeMappedFrame f = .ok i) :
    lastBit i = some (frameT f) := by
  simp only [decodeMappedFrame] at h
  split_ifs at h <;> cases h <;> rfl

/-- A row that a block reads from a symbol is completed by the symbol's last bit. -/
theorem lastBit_of_decode {cfg : Config} {pre : BitVec 4} {sym : Symbol} {i : Instr}
    (h : decode cfg pre sym = .ok i) : lastBit i = completingBit cfg sym := by
  cases sym with
  | duration d => exact (decodeDuration_ok h).2
  | syncBit b => cases h; exact lastBit_decodeSyncBit pre b
  | addressByte a => exact lastBit_of_decodeAddressByte h
  | mappedFrame f => exact lastBit_of_decodeMappedFrame h
  | checkedFrame f => cases h; rfl

/-! The edge that brings a duration. -/

/-- The most specific row of a bit is completed by that bit, when the pulse row is. -/
theorem lastBit_rowOfBit (s : State) {b : Bit} {pulse : Instr} (hp : lastBit pulse = some b) :
    lastBit (rowOfBit s b pulse) = some b := by
  have hchecked : lastBit (decodeCheckedFrame (heldFrame s b)) = some b :=
    congrArg some (frameT_frameBody _ _ _ _ _ b)
  unfold rowOfBit
  cases s.st with
  | sync => exact lastBit_decodeSyncBit s.pre b
  | unused => exact lastBit_decodeSyncBit s.pre b
  | addr =>
    dsimp only
    split
    next =>
      split
      next i hi => rw [lastBit_of_decodeAddressByte hi, shiftIn_getLsbD, if_pos rfl]
      next => exact hp
    next => exact hp
  | term =>
    dsimp only
    split
    next => exact hchecked
    next =>
      split
      next i hi => rw [lastBit_of_decodeMappedFrame hi, heldFrame, frameT_frameBody]
      next => exact hchecked
  | ib1 => exact hp
  | cmd => exact hp
  | ib2 => exact hp
  | chk => exact hp

/-- The row that a duration spells is completed by the bit the duration is. -/
theorem lastBit_rowOfDuration {s : State} {d : Nat} {i : Instr} (h : rowOfDuration s d = .ok i) :
    lastBit i = spelledBit s.cfg d := by
  unfold rowOfDuration at h
  cases hd : decodeDuration s.cfg d with
  | error r => simp [hd] at h
  | ok pulse =>
    have hp := (decodeDuration_ok hd).2
    cases hb : spelledBit s.cfg d with
    | none =>
      simp only [hd, hb] at h
      cases h
      rw [hp, hb]
    | some b =>
      simp only [hd, hb] at h
      cases h
      exact lastBit_rowOfBit s (hp.trans hb)

/-- An edge that brings a duration is `Step(S, d)` (43_packet_decoder.md R162). -/
theorem step_of_measurement {s : State} {d : Nat} {ps : List Pins} (hl : s.cfg.Legal)
    (hin : s.input = measurement d :: ps) (hd : d < 2 ^ s.cfg.durW) :
    step s = .next (durationStep d s) := by
  obtain ⟨i, hi⟩ := rowOfDuration_isOk s d hd
  have he : nextEvent s = .run i := by
    unfold nextEvent
    rw [if_pos hl, hin]
    simp [measurement, hi]
  rw [step_of_run he, exec_eq_consumeClassified, lastBit_rowOfDuration hi,
    durationStep_eq_consumeClassified]

/-- Every row completed by the bit that the edge's duration spells is what the edge runs. -/
theorem step_eq_exec_of_lastBit {s : State} {d : Nat} {ps : List Pins} {i : Instr} (hl : s.cfg.Legal)
    (hin : s.input = measurement d :: ps) (hd : d < 2 ^ s.cfg.durW)
    (hi : lastBit i = spelledBit s.cfg d) : step s = exec i s := by
  rw [step_of_measurement hl hin hd, durationStep_eq_consumeClassified, exec_eq_consumeClassified, hi]

/-- Settles O22: the row of each symbol of the edge is completed by the bit that the duration spells. -/
theorem stepRunsDecodedInstruction : Obligations.StepRunsDecodedInstruction := by
  intro s d ps i hl hin hd
  refine ⟨fun h => step_eq_exec_of_lastBit hl hin hd (lastBit_of_decode h), fun b hb => ?_⟩
  have run (hi : lastBit i = some b) : step s = exec i s :=
    step_eq_exec_of_lastBit hl hin hd (hi.trans hb.symm)
  refine ⟨fun _ h => run (lastBit_of_decode h), fun _ _ h => run ?_,
    fun s1 s2 _ => ⟨fun h => run ?_, fun h => run ?_⟩⟩
  · rw [lastBit_of_decode h, completingBit, shiftIn_getLsbD, if_pos rfl]
  · rw [lastBit_of_decode h, completingBit, frameT_frameBody]
  · rw [lastBit_of_decode h, completingBit, frameT_frameBody]

/-! Placing a table word. -/

theorem durationOf_lt {cfg : Config} (hl : cfg.Legal) (b : Bit) : durationOf cfg b < 2 ^ cfg.durW := by
  obtain ⟨-, ⟨hone, hlt, hzero⟩, -⟩ := hl
  cases b <;> simp only [durationOf, Bool.false_eq_true, if_true, if_false] <;> omega

theorem spelledBit_durationOf {cfg : Config} (hl : cfg.Legal) (b : Bit) :
    spelledBit cfg (durationOf cfg b) = some b := by
  obtain ⟨-, ⟨-, hlt, -⟩, -⟩ := hl
  cases b
  · simp [spelledBit, classify, durationOf]
  · simp [spelledBit, classify, durationOf, Nat.not_le.2 hlt]

@[simp] theorem placeSymbol_cfg (s : State) (sym : Symbol) : (placeSymbol s sym).cfg = s.cfg := by
  cases sym <;> rfl

/-- A placed symbol that its block reads a row from waits on the pins with a duration the port can
carry, which spells the symbol's last bit. -/
theorem placeSymbol_input {s : State} {pre : BitVec 4} {sym : Symbol} {i : Instr} (hl : s.cfg.Legal)
    (h : decode s.cfg pre sym = .ok i) :
    ∃ d, (placeSymbol s sym).input = measurement d :: s.input ∧ d < 2 ^ s.cfg.durW ∧
      spelledBit s.cfg d = completingBit s.cfg sym := by
  cases sym with
  | duration d => exact ⟨d, rfl, (decodeDuration_ok h).1, rfl⟩
  | syncBit b => exact ⟨_, rfl, durationOf_lt hl _, spelledBit_durationOf hl _⟩
  | addressByte a => exact ⟨_, rfl, durationOf_lt hl _, spelledBit_durationOf hl _⟩
  | mappedFrame f => exact ⟨_, rfl, durationOf_lt hl _, spelledBit_durationOf hl _⟩
  | checkedFrame f => exact ⟨_, rfl, durationOf_lt hl _, spelledBit_durationOf hl _⟩

theorem withFetchWord_of_tableSymbol (s : State) {nbits w : Nat} {sym : Symbol}
    (h : tableSymbol nbits w = .ok sym) : s.withFetchWord nbits w = placeSymbol s sym := by
  simp [State.withFetchWord, placeTableWord, h]

/-- Settles O25: the placed symbol's last bit is on the pins, and it completes the decoded row. -/
theorem placedTableWordRunsNext : Obligations.PlacedTableWordRunsNext := by
  intro s nbits w sym i hl hsym hdec
  obtain ⟨d, hin, hd, hbit⟩ := placeSymbol_input hl hdec
  rw [withFetchWord_of_tableSymbol s hsym]
  refine step_eq_exec_of_lastBit (d := d) (ps := s.input) ?_ hin ?_ ?_ <;> rw [placeSymbol_cfg]
  · exact hl
  · exact hd
  · rw [lastBit_of_decode hdec, hbit]

/-! The configuration. -/

@[simp] theorem consumeInvalid_cfg (s : State) : (consumeInvalid s).cfg = s.cfg := by
  rcases absorbInvalid_cases (beginEdge s) with ⟨-, h⟩ | ⟨-, h⟩ <;> rw [consumeInvalid, h] <;> rfl

theorem observe_cfg (b : Bit) (s : State) : (observe b s).cfg = s.cfg := by
  rcases observe_cases b s with ⟨-, h⟩ | ⟨-, -, h⟩ | ⟨-, -, h⟩ <;> rw [h] <;> rfl

theorem addrBit_cfg (b : Bit) (s : State) : (addrBit b s).cfg = s.cfg := by
  rcases addrBit_cases b s with ⟨-, h⟩ | ⟨-, -, h⟩ | ⟨-, -, h⟩ <;> rw [h]

theorem separator1_cfg (b : Bit) (s : State) : (separator1 b s).cfg = s.cfg := by
  rcases separator1_cases b s with ⟨-, h⟩ | ⟨-, h⟩ <;> rw [h]; rfl

theorem separator2_cfg (b : Bit) (s : State) : (separator2 b s).cfg = s.cfg := by
  rcases separator2_cases b s with ⟨-, h⟩ | ⟨-, h⟩ <;> rw [h]; rfl

theorem terminate_cfg (fn : BitVec 2) (v t : Bit) (s : State) : (terminate fn v t s).cfg = s.cfg := by
  rcases terminate_cases fn v t s with ⟨-, h⟩ | ⟨-, h⟩ <;> rw [h] <;> rfl

theorem bitStep_cfg (b : Bit) (s : State) : (bitStep b s).cfg = s.cfg := by
  unfold bitStep
  cases s.st with
  | sync => exact observe_cfg b s
  | addr => exact addrBit_cfg b s
  | ib1 => exact separator1_cfg b s
  | cmd => exact cmdBit_cfg b s
  | ib2 => exact separator2_cfg b s
  | chk => exact chkBit_cfg b s
  | term => exact terminate_cfg _ _ b s
  | unused => exact observe_cfg b s

@[simp] theorem consumeBit_cfg (b : Bit) (s : State) : (consumeBit b s).cfg = s.cfg :=
  bitStep_cfg b (bitFetched s)

@[simp] theorem consumeClassified_cfg (o : Option Bit) (s : State) :
    (consumeClassified o s).cfg = s.cfg := by
  cases o with
  | none => exact consumeInvalid_cfg s
  | some b => exact consumeBit_cfg b s

theorem exec_cfg {i : Instr} {s t : State} (h : exec i s = .next t) : t.cfg = s.cfg := by
  rw [exec_eq_consumeClassified] at h
  cases h
  exact consumeClassified_cfg _ s

/-- Settles O33, over the kinds of edge: idle, reset, or one that runs a row. -/
theorem configurationNeverChanges : Obligations.ConfigurationNeverChanges := by
  intro s t h
  obtain ⟨-, ⟨-, rfl⟩ | ⟨p, ps, -, ⟨-, rfl⟩ | ⟨-, -, rfl⟩ | ⟨-, -, -, i, -, hexec⟩⟩⟩ :=
    step_next_cases h
  · exact beginEdge_cfg s
  · exact resetWith_cfg s.cfg s.input.tail
  · exact beginEdge_cfg s
  · exact exec_cfg hexec

theorem nextEvent_of_illegal {s : State} (h : ¬ s.cfg.Legal) :
    nextEvent s = .refuse .illegalConfiguration := if_neg h

/-- Settles O28: the configuration is looked at before the pins are. -/
theorem illegalConfigurationHasNoRun : Obligations.IllegalConfigurationHasNoRun :=
  fun _ h => step_of_refuse (nextEvent_of_illegal h)

end Sys2Proof.Machine

/-! `OUT_MAP` as a map from function numbers to lines (00_scope.md R10; 45_output_mapper.md R233). -/

namespace Sys2Proof

@[simp] theorem OutMap.line_zero (m : OutMap) : m.line 0#2 = m.line0 := rfl
@[simp] theorem OutMap.line_one (m : OutMap) : m.line 1#2 = m.line1 := rfl
@[simp] theorem OutMap.line_two (m : OutMap) : m.line 2#2 = m.line2 := rfl
@[simp] theorem OutMap.line_three (m : OutMap) : m.line 3#2 = m.line3 := rfl

theorem functionNumber_cases (fn : BitVec 2) : fn = 0#2 ∨ fn = 1#2 ∨ fn = 2#2 ∨ fn = 3#2 := by
  revert fn; decide

/-- A permutation sends different functions to different lines. -/
theorem OutMap.line_injective {m : OutMap} (h : m.IsPermutation) : Function.Injective m.line := by
  obtain ⟨h01, h02, h03, h12, h13, h23⟩ := h
  intro fn gn heq
  rcases functionNumber_cases fn with rfl | rfl | rfl | rfl <;>
    rcases functionNumber_cases gn with rfl | rfl | rfl | rfl <;> simp_all

/-- Settles O52: an injective map from the four function numbers to the four lines is onto. -/
theorem outMapReachesEachLineOnce : Obligations.OutMapReachesEachLineOnce := by
  intro cfg ln hl
  obtain ⟨-, -, -, -, hperm, -⟩ := hl
  have hinj := OutMap.line_injective hperm
  obtain ⟨fn, rfl⟩ := Finite.surjective_of_injective hinj ln
  exact ⟨fn, rfl, fun gn hgn => hinj hgn⟩

end Sys2Proof
end

section
/-! SUPPORT. An edge that takes a duration runs a row of the transition table (43_packet_decoder.md
R163), so what every step keeps is read off the table row by row. -/

namespace Sys2Proof.Machine

/-! Every step on a duration is a row of the table. -/

/-- What a class of duration is to the table (43_packet_decoder.md R163, column `input`). -/
def inputOfClass : PulseClass → ClassifiedInput
  | .zero => .bit false
  | .one => .bit true
  | .invalid => .invalid

@[simp] theorem inputOfClass_eq_invalid_iff (c : PulseClass) :
    inputOfClass c = .invalid ↔ c = .invalid := by cases c <;> simp [inputOfClass]

@[simp] theorem inputOfClass_eq_one_iff (c : PulseClass) :
    inputOfClass c = .bit true ↔ c = .one := by cases c <;> simp [inputOfClass]

@[simp] theorem inputOfClass_eq_zero_iff (c : PulseClass) :
    inputOfClass c = .bit false ↔ c = .zero := by cases c <;> simp [inputOfClass]

theorem passesFilter_iff (cfg : Config) (a : Byte) :
    passesFilter cfg a = true ↔
      a.extractLsb' 6 2 = 0b10#2 ∧ (a.extractLsb' 0 6).toNat = cfg.baseAddr := by
  simp [passesFilter, markerOk, accessoryAddress]

theorem idx_toNat_lt_seven {i : BitVec 3} (h : i ≠ 7#3) : i.toNat < 7 := by bv_omega

theorem toNat_not_eq_badTerminator (b : Bit) : (!b).toNat = badTerminator b := by cases b <;> rfl

theorem tableRow_observe (b : Bit) {s : State} (h : s.st = .sync ∨ s.st = .unused) :
    TableRow s (.bit b) (observe b (bitFetched s)) := by
  rcases observe_cases b (bitFetched s) with ⟨rfl, he⟩ | ⟨rfl, hpre, he⟩ | ⟨rfl, hpre, he⟩ <;> rw [he]
  · exact .syncOne h
  · exact .syncStart h hpre
  · exact .syncIdle h hpre

theorem tableRow_addrBit (b : Bit) {s : State} (h : s.st = .addr) :
    TableRow s (.bit b) (addrBit b (bitFetched s)) := by
  rcases addrBit_cases b (bitFetched s) with ⟨hidx, he⟩ | ⟨hidx, hf, he⟩ | ⟨hidx, hf, he⟩ <;> rw [he]
  · exact .addrShift b h (idx_toNat_lt_seven hidx)
  · obtain ⟨hmarker, haddr⟩ := (passesFilter_iff _ _).1 hf
    exact .addrPass b h (congrArg BitVec.toNat hidx) hmarker haddr
  · rw [← Bool.not_eq_true, passesFilter_iff] at hf
    exact .addrDiscard b h (congrArg BitVec.toNat hidx) hf

theorem tableRow_separator1 (b : Bit) {s : State} (h : s.st = .ib1) :
    TableRow s (.bit b) (separator1 b (bitFetched s)) := by
  rcases separator1_cases b (bitFetched s) with ⟨rfl, he⟩ | ⟨rfl, he⟩ <;> rw [he]
  · exact .ib1Zero h
  · exact .ib1One h

theorem tableRow_cmdBit (b : Bit) {s : State} (h : s.st = .cmd) :
    TableRow s (.bit b) (cmdBit b (bitFetched s)) := by
  rcases cmdBit_cases b (bitFetched s) with ⟨hidx, he⟩ | ⟨hidx, he⟩ <;> rw [he]
  · exact .cmdShift b h (idx_toNat_lt_seven hidx)
  · exact .cmdDone b h (congrArg BitVec.toNat hidx)

theorem tableRow_separator2 (b : Bit) {s : State} (h : s.st = .ib2) :
    TableRow s (.bit b) (separator2 b (bitFetched s)) := by
  rcases separator2_cases b (bitFetched s) with ⟨rfl, he⟩ | ⟨rfl, he⟩ <;> rw [he]
  · exact .ib2Zero h
  · exact .ib2One h

theorem tableRow_chkBit (b : Bit) {s : State} (h : s.st = .chk) :
    TableRow s (.bit b) (chkBit b (bitFetched s)) := by
  rcases chkBit_cases b (bitFetched s) with ⟨hidx, he⟩ | ⟨hidx, he⟩ <;> rw [he]
  · exact .chkShift b h (idx_toNat_lt_seven hidx)
  · exact .chkDone b h (congrArg BitVec.toNat hidx)

theorem tableRow_terminate (b : Bit) {s : State} (h : s.st = .term) :
    TableRow s (.bit b) (terminate (functionNumber s.cmd) (desiredValue s.cmd) b (bitFetched s)) := by
  rcases terminate_cases (functionNumber s.cmd) (desiredValue s.cmd) b (bitFetched s) with
    ⟨hchk, he⟩ | ⟨hchk, he⟩ <;> rw [he, toNat_not_eq_badTerminator]
  · exact .termGood b h hchk
  · exact .termBad b h hchk

/-- The step on a classified bit is a row of the table, whatever the decoder state is. -/
theorem tableRow_consumeBit (b : Bit) (s : State) : TableRow s (.bit b) (consumeBit b s) := by
  cases h : s.st with
  | sync => rw [consumeBit_of_inSync b ((inSync_iff s).2 (.inl h))]; exact tableRow_observe b (.inl h)
  | addr => rw [consumeBit_of_addr b h]; exact tableRow_addrBit b h
  | ib1 => rw [consumeBit_of_ib1 b h]; exact tableRow_separator1 b h
  | cmd => rw [consumeBit_of_cmd b h]; exact tableRow_cmdBit b h
  | ib2 => rw [consumeBit_of_ib2 b h]; exact tableRow_separator2 b h
  | chk => rw [consumeBit_of_chk b h]; exact tableRow_chkBit b h
  | term => rw [consumeBit_of_term b h]; exact tableRow_terminate b h
  | unused => rw [consumeBit_of_inSync b ((inSync_iff s).2 (.inr h))]; exact tableRow_observe b (.inr h)

/-- The step on noise is a row of the table: retried below the cap, given up at it. -/
theorem tableRow_consumeInvalid (s : State) : TableRow s .invalid (consumeInvalid s) := by
  unfold consumeInvalid
  rcases absorbInvalid_cases (beginEdge s) with ⟨hcap, he⟩ | ⟨hcap, he⟩ <;> rw [he]
  · exact .retried hcap
  · exact .givenUp hcap

theorem tableRow_durationStep (d : Nat) (s : State) :
    TableRow s (inputOfClass (classify s.cfg d)) (durationStep d s) := by
  rcases durationStep_cases d s with ⟨hc, he⟩ | ⟨hc, he⟩ | ⟨hc, he⟩ <;> rw [hc, he]
  · exact tableRow_consumeBit false s
  · exact tableRow_consumeBit true s
  · exact tableRow_consumeInvalid s

theorem tableRow_of_exec {s t : State} {d : Nat} {i : Instr} (hrow : rowOfDuration s d = .ok i)
    (h : exec i s = .next t) : TableRow s (inputOfClass (classify s.cfg d)) t := by
  rw [exec_eq_consumeClassified, lastBit_rowOfDuration hrow, ← durationStep_eq_consumeClassified] at h
  cases h
  exact tableRow_durationStep d s

/-- An edge with a next state is idle, a reset, or a row of the table. -/
theorem step_next_tableRow {s t : State} (h : step s = .next t) :
    t = idleEdge s ∨ (∃ p ps, s.input = p :: ps ∧ p.rst = true ∧ t = resetEdge s) ∨
      ∃ x, TableRow s x t := by
  obtain ⟨-, ⟨-, rfl⟩ | ⟨p, ps, hin, ⟨hr, rfl⟩ | ⟨-, -, rfl⟩ | ⟨-, -, -, i, hrow, hexec⟩⟩⟩ :=
    step_next_cases h
  · exact .inl rfl
  · exact .inr (.inl ⟨p, ps, hin, hr, rfl⟩)
  · exact .inl rfl
  · exact .inr (.inr ⟨_, tableRow_of_exec hrow hexec⟩)

/-- Without reset, an edge with a next state is idle or a row of the table. -/
theorem step_next_tableRow_of_not_reset {s t : State} (hr : ∀ p ps, s.input = p :: ps → p.rst = false)
    (h : step s = .next t) : t = idleEdge s ∨ ∃ x, TableRow s x t := by
  rcases step_next_tableRow h with ht | ⟨p, ps, hin, hrst, -⟩ | ht
  · exact .inl ht
  · rw [hr p ps hin] at hrst
    cases hrst
  · exact .inr ht

/-- An edge that brings a duration and answers a next state is the row of the duration's class. -/
theorem tableRow_of_measurement {s t : State} {d : Nat} {ps : List Pins}
    (hin : s.input = measurement d :: ps) (h : step s = .next t) :
    TableRow s (inputOfClass (classify s.cfg d)) t := by
  obtain ⟨-, ⟨hnil, -⟩ | ⟨p, qs, hcons, hp⟩⟩ := step_next_cases h
  · rw [hin] at hnil
    cases hnil
  · rw [hin] at hcons
    cases hcons
    obtain ⟨hr, -⟩ | ⟨-, hv, -⟩ | ⟨-, -, -, i, hrow, hexec⟩ := hp
    · cases hr
    · cases hv
    · exact tableRow_of_exec hrow hexec

/-! What every row of the table does to the parameters and to the pin samples. -/

section TableRow

variable {s t : State} {x : ClassifiedInput}

theorem TableRow.cfg_eq (h : TableRow s x t) : t.cfg = s.cfg := by cases h <;> rfl

theorem TableRow.input_eq (h : TableRow s x t) : t.input = s.input.tail := by cases h <;> rfl

/-! The counters (10_state.md R45). -/

theorem counted_le_countMax (s : State) (c n : Nat) : counted s c n ≤ s.cfg.countMax :=
  Nat.min_le_right _ _

theorem le_counted {s : State} {c : Nat} (n : Nat) (h : c ≤ s.cfg.countMax) : c ≤ counted s c n :=
  Nat.le_min.2 ⟨Nat.le_add_right c n, h⟩

theorem le_ite_counted {s : State} {c : Nat} (p : Prop) [Decidable p] (n : Nat)
    (h : c ≤ s.cfg.countMax) : c ≤ if p then counted s c n else c := by
  split
  · exact le_counted n h
  · exact Nat.le_refl c

theorem ite_counted_le_countMax {s : State} {c : Nat} (p : Prop) [Decidable p] (n : Nat)
    (h : c ≤ s.cfg.countMax) : (if p then counted s c n else c) ≤ s.cfg.countMax := by
  split
  · exact counted_le_countMax s c n
  · exact h

theorem badTerminator_eq (b : Bit) :
    badTerminator b = if ClassifiedInput.bit b = .bit false then 1 else 0 := by cases b <;> rfl

/-- The rows of the synchronizer belong to no other state. -/
theorem ne_of_sync_or_unused {st : DecState} (d : DecState) (h : st = .sync ∨ st = .unused)
    (hsync : d ≠ .sync := by decide) (hunused : d ≠ .unused := by decide) : st ≠ d := by
  rcases h with rfl | rfl
  · exact hsync.symm
  · exact hunused.symm

theorem TableRow.cntNoise_eq (h : TableRow s x t) :
    t.cntNoise = if x = .invalid then counted s s.cntNoise 1 else s.cntNoise := by
  cases h <;> rfl

theorem TableRow.cntAddr_eq (h : TableRow s x t) :
    t.cntAddr = if s.st = .ib1 ∧ x = .bit true then counted s s.cntAddr 1 else s.cntAddr := by
  cases h with
  | ib1One hst => simp [hst]
  | syncOne hst => simp [ne_of_sync_or_unused .ib1 hst, withBit]
  | _ => simp_all [withBit, afterAction, afterMismatch]

theorem TableRow.cntCmd_eq (h : TableRow s x t) :
    t.cntCmd = if s.st = .ib2 ∧ x = .bit true then counted s s.cntCmd 1 else s.cntCmd := by
  cases h with
  | ib2One hst => simp [hst]
  | syncOne hst => simp [ne_of_sync_or_unused .ib2 hst, withBit]
  | _ => simp_all [withBit, afterAction, afterMismatch]

theorem TableRow.cntChk_eq (h : TableRow s x t) :
    t.cntChk = if s.st = .term ∧ x ≠ .invalid then
        counted s s.cntChk ((if s.chk = s.addr ^^^ s.cmd then 0 else 1) + if x = .bit false then 1 else 0)
      else s.cntChk := by
  cases h with
  | termGood b hst hchk => simp [hst, hchk, afterAction, badTerminator_eq]
  | termBad b hst hchk => simp [hst, hchk, afterMismatch, badTerminator_eq]
  | syncOne hst => simp [ne_of_sync_or_unused .term hst, withBit]
  | syncStart hst _ => simp [ne_of_sync_or_unused .term hst, withBit]
  | syncIdle hst _ => simp [ne_of_sync_or_unused .term hst, withBit]
  | _ => simp_all [withBit]

theorem TableRow.counters_le (h : TableRow s x t) (hc : CountersInRange s) :
    s.cntChk ≤ t.cntChk ∧ s.cntCmd ≤ t.cntCmd ∧ s.cntAddr ≤ t.cntAddr ∧ s.cntNoise ≤ t.cntNoise := by
  obtain ⟨hchk, hcmd, haddr, hnoise⟩ := hc
  rw [h.cntChk_eq, h.cntCmd_eq, h.cntAddr_eq, h.cntNoise_eq]
  exact ⟨le_ite_counted _ _ hchk, le_ite_counted _ _ hcmd, le_ite_counted _ _ haddr,
    le_ite_counted _ _ hnoise⟩

theorem TableRow.countersInRange (h : TableRow s x t) (hc : CountersInRange s) : CountersInRange t := by
  obtain ⟨hchk, hcmd, haddr, hnoise⟩ := hc
  rw [CountersInRange, h.cfg_eq, h.cntChk_eq, h.cntCmd_eq, h.cntAddr_eq, h.cntNoise_eq]
  exact ⟨ite_counted_le_countMax _ _ hchk, ite_counted_le_countMax _ _ hcmd,
    ite_counted_le_countMax _ _ haddr, ite_counted_le_countMax _ _ hnoise⟩

/-! The byte registers (10_state.md R42 to R44). -/

theorem TableRow.addr_eq (h : TableRow s x t) (hst : s.st ≠ .addr) : t.addr = s.addr := by
  cases h with
  | addrShift b hs => exact absurd hs hst
  | addrPass b hs => exact absurd hs hst
  | addrDiscard b hs => exact absurd hs hst
  | _ => rfl

theorem TableRow.cmd_eq (h : TableRow s x t) (hst : s.st ≠ .cmd) : t.cmd = s.cmd := by
  cases h with
  | cmdShift b hs => exact absurd hs hst
  | cmdDone b hs => exact absurd hs hst
  | _ => rfl

theorem TableRow.chk_eq (h : TableRow s x t) (hst : s.st ≠ .chk) : t.chk = s.chk := by
  cases h with
  | chkShift b hs => exact absurd hs hst
  | chkDone b hs => exact absurd hs hst
  | _ => rfl

/-! The invariant (10_state.md R48): what a row keeps of it, clause by clause. -/

/-- A row names the next `st`, or stays in the state it was in. -/
theorem TableRow.st_ne_unused (h : TableRow s x t) (hs : s.st ≠ .unused) : t.st ≠ .unused := by
  cases h with
  | retried => exact hs
  | addrShift => exact hs
  | cmdShift => exact hs
  | chkShift => exact hs
  | _ => exact nofun

/-- Only a one in SYNC counts `pre` up; the rows of a packet leave it as it is, and the others clear
it. -/
theorem TableRow.pre_eq_zero (h : TableRow s x t) (hpre : s.st ≠ .sync → s.pre = 0#4)
    (hst : t.st ≠ .sync) : t.pre = 0#4 := by
  cases h with
  | syncOne => exact absurd rfl hst
  | retried => exact hpre hst
  | givenUp => rfl
  | syncStart => rfl
  | syncIdle => rfl
  | addrDiscard => rfl
  | termGood => rfl
  | termBad => rfl
  | _ => exact hpre (by simp [*])

theorem inByte_of_sync_or_unused {st : DecState} (h : st = .sync ∨ st = .unused) :
    st.inByte = false := by rcases h with rfl | rfl <;> rfl

/-- A byte state is left with `idx` 0, and no other state moves `idx`. -/
theorem TableRow.idx_eq_zero (h : TableRow s x t) (hidx : s.st.inByte = false → s.idx = 0#3)
    (hst : t.st.inByte = false) : t.idx = 0#3 := by
  have absurd_of_inByte {d : DecState} (hs : s.st = d) (hd : d.inByte = true) (hb : s.st.inByte = false) :
      False := by simp [hs, hd] at hb
  cases h with
  | addrShift b hs => exact (absurd_of_inByte hs rfl hst).elim
  | cmdShift b hs => exact (absurd_of_inByte hs rfl hst).elim
  | chkShift b hs => exact (absurd_of_inByte hs rfl hst).elim
  | givenUp => rfl
  | syncStart => rfl
  | addrPass => rfl
  | addrDiscard => rfl
  | cmdDone => rfl
  | chkDone => rfl
  | retried => exact hidx hst
  | syncOne hs => exact hidx (inByte_of_sync_or_unused hs)
  | syncIdle hs => exact hidx (inByte_of_sync_or_unused hs)
  | _ => exact hidx (by simp [DecState.inByte, *])

/-- A retried noise edge is below the cap; every other row clears `retry`. -/
theorem TableRow.retry_lt (h : TableRow s x t) (hcap : 0 < s.cfg.retryCap) :
    t.retry < s.cfg.retryCap := by
  cases h with
  | retried hlt => exact hlt
  | _ => exact hcap

theorem TableRow.stateInvariants (h : TableRow s x t) (hl : s.cfg.Legal) (hs : StateInvariants s) :
    StateInvariants t := by
  obtain ⟨-, -, hcap, -⟩ := hl
  obtain ⟨hst, hpre, hidx, -⟩ := hs
  exact ⟨h.st_ne_unused hst, h.pre_eq_zero hpre, h.idx_eq_zero hidx, h.cfg_eq ▸ h.retry_lt hcap⟩

/-- The filter is passed only with an address byte that it accepts, and past it `addr` stays. -/
theorem TableRow.filterHeld (h : TableRow s x t) (hf : FilterHeld s) : FilterHeld t := by
  cases h with
  | addrPass b _ _ hmarker haddr => exact fun _ => (passesFilter_iff _ _).2 ⟨hmarker, haddr⟩
  | retried => exact hf
  | cmdShift => exact hf
  | chkShift => exact hf
  | addrShift b hs =>
    intro hpast
    have hpast : s.st.pastFilter = true := hpast
    rw [hs] at hpast
    cases hpast
  | ib1Zero hs => exact fun _ => hf (by rw [hs]; rfl)
  | ib1One hs => exact fun _ => hf (by rw [hs]; rfl)
  | cmdDone b hs => exact fun _ => hf (by rw [hs]; rfl)
  | ib2Zero hs => exact fun _ => hf (by rw [hs]; rfl)
  | ib2One hs => exact fun _ => hf (by rw [hs]; rfl)
  | chkDone b hs => exact fun _ => hf (by rw [hs]; rfl)
  | _ => exact nofun

theorem setLevel_getLsbD_line (o : BitVec 4) (ln : BitVec 2) (v : Bit) :
    (setLevel o ln v).getLsbD ln.toNat = v := by
  rw [setLevel_getLsbD o ln v _ ln.isLt, if_pos rfl]

/-- Only the row of a good checksum leaves a strobe, and it writes the line that it names. -/
theorem TableRow.strobeAgrees (h : TableRow s x t) : StrobeAgrees t := by
  cases h with
  | termGood b => exact fun _ => ⟨rfl, setLevel_getLsbD_line _ _ _⟩
  | _ => exact nofun

theorem TableRow.inv (h : TableRow s x t) (hi : Inv s) : Inv t := by
  obtain ⟨hl, hin, hs, hc, hf, -⟩ := hi
  refine ⟨h.cfg_eq ▸ hl, ?_, h.stateInvariants hl hs, h.countersInRange hc, h.filterHeld hf,
    h.strobeAgrees⟩
  rw [h.cfg_eq, h.input_eq]
  exact fun p hp => hin p (List.mem_of_mem_tail hp)

end TableRow

/-! The edges that run no row. -/

theorem inv_idleEdge {s : State} (hi : Inv s) : Inv (idleEdge s) := by
  obtain ⟨hl, hin, hs, hc, hf, -⟩ := hi
  exact ⟨hl, fun p hp => hin p (List.mem_of_mem_tail hp), hs, hc, hf, nofun⟩

theorem inv_resetWith {cfg : Config} {input : List Pins} (hl : cfg.Legal)
    (hin : ∀ p ∈ input, p.Fits cfg) : Inv (State.resetWith cfg input) := by
  obtain ⟨-, -, hcap, -⟩ := id hl
  have hstate : StateInvariants (State.resetWith cfg input) :=
    ⟨nofun, fun _ => rfl, fun _ => rfl, hcap⟩
  have hcounters : CountersInRange (State.resetWith cfg input) :=
    ⟨Nat.zero_le _, Nat.zero_le _, Nat.zero_le _, Nat.zero_le _⟩
  exact ⟨hl, hin, hstate, hcounters, nofun, nofun⟩

theorem inv_resetEdge {s : State} (hi : Inv s) : Inv (resetEdge s) := by
  obtain ⟨hl, hin, -⟩ := hi
  exact inv_resetWith hl fun p hp => hin p (List.mem_of_mem_tail hp)

/-! The state family of 10_state.md. -/

/-- Settles O31: zeros and SYNC meet every clause, and the caps and widths of a legal configuration
leave room for them. -/
theorem everyResetStateMeetsTheInvariant : Obligations.EveryResetStateMeetsTheInvariant :=
  ⟨fun _ _ hl hin => inv_resetWith hl hin, inv_resetWith (by decide) nofun⟩

/-- Settles O32, over the kinds of edge: idle, reset, or a row of the transition table. -/
theorem stepKeepsInvariant : Obligations.StepKeepsInvariant := by
  intro s t hi h
  rcases step_next_tableRow h with rfl | ⟨p, ps, -, -, rfl⟩ | ⟨x, hrow⟩
  · exact inv_idleEdge hi
  · exact inv_resetEdge hi
  · exact hrow.inv hi

/-- Settles O34, over the kinds of edge: each of them drops the first sample. -/
theorem edgeUsesOneSample : Obligations.EdgeUsesOneSample := by
  intro s t h
  rcases step_next_tableRow h with rfl | ⟨p, ps, -, -, rfl⟩ | ⟨x, hrow⟩
  · exact beginEdge_input s
  · exact resetWith_input s.cfg s.input.tail
  · exact hrow.input_eq

/-- Settles O35: without reset a counter is kept or takes a saturating count. -/
theorem countersNeverDecrease : Obligations.CountersNeverDecrease := by
  intro s t hc hr h
  rcases step_next_tableRow_of_not_reset hr h with rfl | ⟨x, hrow⟩
  · exact ⟨Nat.le_refl _, Nat.le_refl _, Nat.le_refl _, Nat.le_refl _⟩
  · exact hrow.counters_le hc

/-- Settles O36: the row of the duration's class says what each counter takes. -/
theorem countersCountTheirEvents : Obligations.CountersCountTheirEvents := by
  intro s t d ps hin h
  have hrow := tableRow_of_measurement hin h
  refine ⟨?_, ?_, ?_, ?_⟩
  · simp only [hrow.cntNoise_eq, inputOfClass_eq_invalid_iff, counted, Config.countMax]
  · simp only [hrow.cntAddr_eq, inputOfClass_eq_one_iff, counted, Config.countMax]
  · simp only [hrow.cntCmd_eq, inputOfClass_eq_one_iff, counted, Config.countMax]
  · simp only [hrow.cntChk_eq, ne_eq, inputOfClass_eq_invalid_iff, inputOfClass_eq_zero_iff, counted,
      Config.countMax]

/-- Settles O38: a row that writes a byte register is a row of that register's state. -/
theorem bytesWrittenOnlyInTheirState : Obligations.BytesWrittenOnlyInTheirState := by
  intro s t hr h
  rcases step_next_tableRow_of_not_reset hr h with rfl | ⟨x, hrow⟩
  · exact ⟨fun _ => beginEdge_addr s, fun _ => beginEdge_cmd s, fun _ => beginEdge_chk s⟩
  · exact ⟨hrow.addr_eq, hrow.cmd_eq, hrow.chk_eq⟩

/-- Settles O30, register by register. -/
theorem resetRegisterValues : Obligations.ResetRegisterValues :=
  ⟨rfl, rfl, rfl, rfl, rfl, rfl, rfl, rfl, rfl, rfl, rfl, rfl, rfl, rfl, rfl, rfl⟩

theorem step_of_no_sample {s : State} (hl : s.cfg.Legal) (hin : s.input = []) :
    step s = .next (idleEdge s) :=
  step_of_settle (by rw [nextEvent, if_pos hl, hin])

theorem step_of_idle_pins {s : State} {p : Pins} {ps : List Pins} (hl : s.cfg.Legal)
    (hin : s.input = p :: ps) (hr : p.rst = false) (hv : p.durValid = false) :
    step s = .next (idleEdge s) :=
  step_of_settle (by rw [nextEvent, if_pos hl, hin]; simp [hr, hv])

/-- Settles O27: both edges are the idle edge, which uses up the sample and lowers the strobe. -/
theorem edgeWithoutDurationHoldsState : Obligations.EdgeWithoutDurationHoldsState := by
  refine ⟨fun s p ps hl hin hr hv => ?_, fun s hl hin => ?_⟩
  · rw [step_of_idle_pins hl hin hr hv, idleEdge, beginEdge, hin, List.tail_cons]
  · rw [step_of_no_sample hl hin, idleEdge, beginEdge, hin, List.tail_nil, ← hin]

end Sys2Proof.Machine

/-! The width of `retry` (00_scope.md section 4, parameter RETRY_W). -/

namespace Sys2Proof

theorem le_leastWidth (n fuel w : Nat) : w ≤ leastWidth n fuel w := by
  induction fuel generalizing w with
  | zero => exact Nat.le_refl w
  | succ fuel ih =>
    unfold leastWidth
    split
    · exact Nat.le_refl w
    · exact Nat.le_of_succ_le (ih (w + 1))

/-- The search finds a width that fits, if its last place does. -/
theorem le_two_pow_leastWidth {n fuel w : Nat} (h : n ≤ 2 ^ (w + fuel)) :
    n ≤ 2 ^ leastWidth n fuel w := by
  induction fuel generalizing w with
  | zero => exact h
  | succ fuel ih =>
    unfold leastWidth
    split
    next hw => exact hw
    next => exact ih (by rwa [Nat.add_right_comm])

/-- The search stops at the first width that fits. -/
theorem leastWidth_le {n fuel w v : Nat} (hwv : w ≤ v) (hv : n ≤ 2 ^ v) : leastWidth n fuel w ≤ v := by
  induction fuel generalizing w with
  | zero => exact hwv
  | succ fuel ih =>
    unfold leastWidth
    split
    next => exact hwv
    next hw => exact ih (Nat.lt_of_le_of_ne hwv fun heq => hw (heq ▸ hv))

theorem Config.retryCap_le_two_pow_retryWidth (cfg : Config) : cfg.retryCap ≤ 2 ^ cfg.retryWidth := by
  refine le_two_pow_leastWidth ?_
  calc cfg.retryCap ≤ 2 ^ cfg.retryCap := Nat.lt_two_pow_self.le
    _ ≤ 2 ^ (1 + cfg.retryCap) := Nat.pow_le_pow_right Nat.two_pos (Nat.le_add_left _ 1)

/-- Settles O58: the search from 1 finds the least width, and RETRY_CAP places are enough. -/
theorem retryFitsItsRegister : Obligations.RetryFitsItsRegister :=
  fun cfg _ => ⟨le_leastWidth cfg.retryCap cfg.retryCap 1,
    fun _ hn => Nat.lt_of_lt_of_le hn cfg.retryCap_le_two_pow_retryWidth,
    fun _ hw hcap => leastWidth_le hw hcap⟩

end Sys2Proof
end

section
/-! SUPPORT. The memory family (20_memory.md R61): the configured address is never 0, so the address byte
of address 0 is one that the filter rejects (45_output_mapper.md R221). -/

namespace Sys2Proof.Machine

/-- `BASE_ADDR` starts at 1 (00_scope.md R13). -/
theorem baseAddr_pos_of_legal {cfg : Config} (h : cfg.Legal) : 0 < cfg.baseAddr := by
  obtain ⟨-, -, -, ⟨hpos, -⟩, -⟩ := h
  exact hpos

/-- Settles O53: 0x80 is the address byte of address 0, and 0 is not BASE_ADDR. -/
theorem addressZeroNeverPasses : Obligations.AddressZeroNeverPasses := by
  intro cfg hl
  have hbyte : 0x80#8 = accessoryByte 0#6 := by decide
  have hne : (0#6).toNat ≠ cfg.baseAddr := (baseAddr_pos_of_legal hl).ne
  rw [hbyte]
  exact passesFilter_accessoryByte_of_ne hne

end Sys2Proof.Machine
end

section
/-! SUPPORT. The decoder and the encoder are inverse to each other: an equation of the decoder for each
format that the encoder builds, and every symbol that decodes is of one of those formats
(30_encoding.md R80 to R91). -/

namespace Sys2Proof

/-! The classifier's rows. -/

theorem classify_eq_zero_iff (cfg : Config) (d : Nat) : classify cfg d = .zero ↔ cfg.tZero ≤ d := by
  unfold classify
  split_ifs <;> simp_all

theorem classify_eq_one_iff (cfg : Config) (d : Nat) :
    classify cfg d = .one ↔ cfg.tOne ≤ d ∧ d < cfg.tZero := by
  unfold classify
  split_ifs <;> simp <;> omega

theorem classify_eq_invalid_iff (cfg : Config) (d : Nat) :
    classify cfg d = .invalid ↔ d < cfg.tOne ∧ d < cfg.tZero := by
  unfold classify
  split_ifs <;> simp <;> omega

/-- The pulse row of a class of duration. -/
def pulseRow (d : Nat) : PulseClass → Instr
  | .zero => .pulseZero d
  | .one => .pulseOne d
  | .invalid => .pulseInvalid d

theorem encode_pulseRow (d : Nat) (c : PulseClass) : encode (pulseRow d c) = .duration d := by
  cases c <;> rfl

theorem decodeDuration_of_lt {cfg : Config} {d : Nat} (h : d < 2 ^ cfg.durW) :
    decodeDuration cfg d = .ok (pulseRow d (classify cfg d)) := by
  rw [decodeDuration, if_pos h]
  cases classify cfg d <;> rfl

theorem decodeDuration_of_not_lt {cfg : Config} {d : Nat} (h : ¬ d < 2 ^ cfg.durW) :
    decodeDuration cfg d = .error .durationTooWide := if_neg h

theorem wellFormed_pulseRow {cfg : Config} {d : Nat} (pre : BitVec 4) (h : d < 2 ^ cfg.durW) :
    WellFormed cfg pre (pulseRow d (classify cfg d)) := by
  rcases bitOfDuration_class cfg d with ⟨hc, hz⟩ | ⟨hc, hz, ho⟩ | ⟨hc, -, ho⟩ <;> rw [hc]
  · exact ⟨hz, h⟩
  · exact ⟨ho, hz, h⟩
  · exact ⟨ho, h⟩

/-! The synchronizer's rows. -/

theorem decodeSyncBit_start {pre : BitVec 4} (h : InStartRange pre) :
    decodeSyncBit pre false = .syncStart := if_pos h

theorem decodeSyncBit_idle {pre : BitVec 4} (h : ¬ InStartRange pre) :
    decodeSyncBit pre false = .syncIdle := if_neg h

theorem decodeSyncBit_sound (cfg : Config) (pre : BitVec 4) (b : Bit) :
    encode (decodeSyncBit pre b) = .syncBit b ∧ WellFormed cfg pre (decodeSyncBit pre b) := by
  cases b with
  | true => exact ⟨rfl, trivial⟩
  | false =>
    by_cases h : InStartRange pre
    · rw [decodeSyncBit_start h]
      exact ⟨rfl, h⟩
    · rw [decodeSyncBit_idle h]
      exact ⟨rfl, h⟩

/-! The filter's rows: the three formats of an address byte (30_encoding.md R84, R91). -/

theorem notAccessoryByte0_low (x : BitVec 7) : (notAccessoryByte0 x).extractLsb' 0 7 = x :=
  BitVec.extractLsb'_append_eq_right

theorem notAccessoryByte11_low (x : BitVec 6) : (notAccessoryByte11 x).extractLsb' 0 6 = x :=
  BitVec.extractLsb'_append_eq_right

theorem notAccessoryByte0_bit7 (x : BitVec 7) : (notAccessoryByte0 x).getLsbD 7 = false := by
  simp only [notAccessoryByte0, BitVec.getLsbD_append]
  simp

theorem notAccessoryByte11_bit7 (x : BitVec 6) : (notAccessoryByte11 x).getLsbD 7 = true := by
  simp only [notAccessoryByte11, BitVec.getLsbD_append]
  simp

theorem notAccessoryByte11_bit6 (x : BitVec 6) : (notAccessoryByte11 x).getLsbD 6 = true := by
  simp only [notAccessoryByte11, BitVec.getLsbD_append]
  simp

theorem accessoryByte_bit7 (a : BitVec 6) : (accessoryByte a).getLsbD 7 = true := by
  simp only [accessoryByte, BitVec.getLsbD_append]
  simp

theorem accessoryByte_bit6 (a : BitVec 6) : (accessoryByte a).getLsbD 6 = false := by
  simp only [accessoryByte, BitVec.getLsbD_append]
  simp

theorem notAccessoryByte0_of_marker {a : Byte} (h : a.extractLsb' 7 1 = 0b0#1) :
    notAccessoryByte0 (a.extractLsb' 0 7) = a := by
  rw [notAccessoryByte0, ← h]
  exact (BitVec.extractLsb'_append_extractLsb'_eq_extractLsb' rfl).trans BitVec.extractLsb'_eq_self

theorem notAccessoryByte11_of_marker {a : Byte} (h : a.extractLsb' 6 2 = 0b11#2) :
    notAccessoryByte11 (a.extractLsb' 0 6) = a := by
  rw [notAccessoryByte11, ← h]
  exact (BitVec.extractLsb'_append_extractLsb'_eq_extractLsb' rfl).trans BitVec.extractLsb'_eq_self

theorem accessoryByte_of_marker {a : Byte} (h : a.extractLsb' 6 2 = 0b10#2) :
    accessoryByte (a.extractLsb' 0 6) = a := by
  rw [accessoryByte, ← h]
  exact (BitVec.extractLsb'_append_extractLsb'_eq_extractLsb' rfl).trans BitVec.extractLsb'_eq_self

/-- The three markers of an address byte leave none out. -/
theorem marker_cases (a : Byte) :
    a.extractLsb' 7 1 = 0b0#1 ∨ a.extractLsb' 6 2 = 0b11#2 ∨ a.extractLsb' 6 2 = 0b10#2 := by
  revert a; decide

/-- Every address byte has one of the three formats. -/
theorem addressByte_cases (a : Byte) :
    (∃ x, a = notAccessoryByte0 x) ∨ (∃ x, a = notAccessoryByte11 x) ∨ ∃ x, a = accessoryByte x := by
  rcases marker_cases a with h | h | h
  · exact .inl ⟨_, (notAccessoryByte0_of_marker h).symm⟩
  · exact .inr (.inl ⟨_, (notAccessoryByte11_of_marker h).symm⟩)
  · exact .inr (.inr ⟨_, (accessoryByte_of_marker h).symm⟩)

theorem decodeAddressByte_notAccessoryByte0 (cfg : Config) (x : BitVec 7) :
    decodeAddressByte cfg (notAccessoryByte0 x) = .ok (.discardNotacc0 x) := by
  rw [decodeAddressByte, if_pos (notAccessoryByte0_bit7 x), notAccessoryByte0_low]

theorem decodeAddressByte_notAccessoryByte11 (cfg : Config) (x : BitVec 6) :
    decodeAddressByte cfg (notAccessoryByte11 x) = .ok (.discardNotacc11 x) := by
  rw [decodeAddressByte, notAccessoryByte11_bit7, if_neg Bool.noConfusion,
    if_pos (notAccessoryByte11_bit6 x), notAccessoryByte11_low]

theorem decodeAddressByte_accessoryByte (cfg : Config) (a : BitVec 6) :
    decodeAddressByte cfg (accessoryByte a) =
      if a.toNat ≠ cfg.baseAddr then .ok (.discardOtheraddr a) else .error .byteAccepted := by
  rw [decodeAddressByte, accessoryByte_bit7, if_neg Bool.noConfusion,
    accessoryByte_bit6, if_neg Bool.false_ne_true, accessoryByte_low]

/-! The output mapper's rows: one SET row for each value of `cmd[2:0]` (30_encoding.md R89). -/

/-- The SET row of the three table bits (45_output_mapper.md R225 to R232). -/
def setRow (row : BitVec 3) (a : BitVec 6) (s1 : Bit) (x : BitVec 5) (s2 : Bit) (k : Byte) (t : Bit) :
    Instr :=
  if row = 0#3 then .setO0Off a s1 x s2 k t
  else if row = 1#3 then .setO0On a s1 x s2 k t
  else if row = 2#3 then .setO1Off a s1 x s2 k t
  else if row = 3#3 then .setO1On a s1 x s2 k t
  else if row = 4#3 then .setO2Off a s1 x s2 k t
  else if row = 5#3 then .setO2On a s1 x s2 k t
  else if row = 6#3 then .setO3Off a s1 x s2 k t
  else .setO3On a s1 x s2 k t

theorem tableBits_cases (row : BitVec 3) :
    row = 0#3 ∨ row = 1#3 ∨ row = 2#3 ∨ row = 3#3 ∨ row = 4#3 ∨ row = 5#3 ∨ row = 6#3 ∨ row = 7#3 := by
  revert row; decide

theorem encode_setRow (row : BitVec 3) (a : BitVec 6) (s1 : Bit) (x : BitVec 5) (s2 : Bit) (k : Byte)
    (t : Bit) : encode (setRow row a s1 x s2 k t) =
      .mappedFrame (frameBody (accessoryByte a) s1 (commandByte x row) s2 k t) := by
  rcases tableBits_cases row with rfl | rfl | rfl | rfl | rfl | rfl | rfl | rfl <;> rfl

theorem wellFormed_setRow (cfg : Config) (pre : BitVec 4) (row : BitVec 3) (a : BitVec 6) (s1 : Bit)
    (x : BitVec 5) (s2 : Bit) (k : Byte) (t : Bit) : WellFormed cfg pre (setRow row a s1 x s2 k t) := by
  rcases tableBits_cases row with rfl | rfl | rfl | rfl | rfl | rfl | rfl | rfl <;> trivial

/-- A frame body with the accessory marker is read field by field, its SET row named by `cmd[2:0]`. -/
theorem decodeMappedFrame_of_marker {f : FrameBody} (h : (frameAddr f).extractLsb' 6 2 = 0b10#2) :
    decodeMappedFrame f =
      .ok (setRow ((frameCmd f).extractLsb' 0 3) ((frameAddr f).extractLsb' 0 6) (frameS1 f)
        ((frameCmd f).extractLsb' 3 5) (frameS2 f) (frameChk f) (frameT f)) := by
  rw [← extract_of_frameAddr f 6 2 (by decide)] at h
  rw [← extract_of_frameAddr f 0 6 (by decide), ← extract_of_frameCmd f 0 3 (by decide),
    ← extract_of_frameCmd f 3 5 (by decide)]
  simp only [decodeMappedFrame, setRow]
  rw [if_pos h]
  simp only [apply_ite Except.ok]

theorem decodeMappedFrame_of_not_marker {f : FrameBody}
    (h : ¬ (frameAddr f).extractLsb' 6 2 = 0b10#2) :
    decodeMappedFrame f = .error .notAccessoryFrame := by
  rw [← extract_of_frameAddr f 6 2 (by decide)] at h
  exact if_neg h

theorem decodeMappedFrame_frameBody (row : BitVec 3) (a : BitVec 6) (s1 : Bit) (x : BitVec 5) (s2 : Bit)
    (k : Byte) (t : Bit) :
    decodeMappedFrame (frameBody (accessoryByte a) s1 (commandByte x row) s2 k t) =
      .ok (setRow row a s1 x s2 k t) := by
  rw [decodeMappedFrame_of_marker (by rw [frameAddr_frameBody, accessoryByte_marker])]
  simp [accessoryByte_low, commandByte_row, commandByte_high]

/-- A frame body with the accessory marker is the encoding of a SET row. -/
theorem frameBody_of_marker {f : FrameBody} (h : (frameAddr f).extractLsb' 6 2 = 0b10#2) :
    frameBody (accessoryByte ((frameAddr f).extractLsb' 0 6)) (frameS1 f)
      (commandByte ((frameCmd f).extractLsb' 3 5) ((frameCmd f).extractLsb' 0 3)) (frameS2 f)
      (frameChk f) (frameT f) = f := by
  rw [accessoryByte_of_marker h, commandByte_fields, frameBody_fields]

/-! Both directions. -/

/-- Settles O54, row by row. A legal configuration is needed for PULSE.INVALID alone: the thresholds
must not cross. -/
theorem decodeOfEncode : Obligations.DecodeOfEncode := by
  intro cfg pre i hl hi
  cases i with
  | pulseZero d =>
    obtain ⟨hz, hd⟩ := hi
    rw [encode, decode, decodeDuration_of_lt hd, (classify_eq_zero_iff cfg d).2 hz, pulseRow]
  | pulseOne d =>
    obtain ⟨ho, hz, hd⟩ := hi
    rw [encode, decode, decodeDuration_of_lt hd, (classify_eq_one_iff cfg d).2 ⟨ho, hz⟩, pulseRow]
  | pulseInvalid d =>
    obtain ⟨ho, hd⟩ := hi
    obtain ⟨-, ⟨-, hlt, -⟩, -⟩ := hl
    rw [encode, decode, decodeDuration_of_lt hd,
      (classify_eq_invalid_iff cfg d).2 ⟨ho, ho.trans hlt⟩, pulseRow]
  | syncOne => rfl
  | syncStart => exact congrArg Except.ok (decodeSyncBit_start hi)
  | syncIdle => exact congrArg Except.ok (decodeSyncBit_idle hi)
  | discardNotacc0 x => exact decodeAddressByte_notAccessoryByte0 cfg x
  | discardNotacc11 x => exact decodeAddressByte_notAccessoryByte11 cfg x
  | discardOtheraddr a => exact (decodeAddressByte_accessoryByte cfg a).trans (if_pos hi)
  | setO0Off a s1 x s2 k t => exact decodeMappedFrame_frameBody 0#3 a s1 x s2 k t
  | setO0On a s1 x s2 k t => exact decodeMappedFrame_frameBody 1#3 a s1 x s2 k t
  | setO1Off a s1 x s2 k t => exact decodeMappedFrame_frameBody 2#3 a s1 x s2 k t
  | setO1On a s1 x s2 k t => exact decodeMappedFrame_frameBody 3#3 a s1 x s2 k t
  | setO2Off a s1 x s2 k t => exact decodeMappedFrame_frameBody 4#3 a s1 x s2 k t
  | setO2On a s1 x s2 k t => exact decodeMappedFrame_frameBody 5#3 a s1 x s2 k t
  | setO3Off a s1 x s2 k t => exact decodeMappedFrame_frameBody 6#3 a s1 x s2 k t
  | setO3On a s1 x s2 k t => exact decodeMappedFrame_frameBody 7#3 a s1 x s2 k t
  | checksum a s1 c s2 k t => simp [encode, decode, decodeCheckedFrame]

theorem decodeDuration_sound {cfg : Config} {d : Nat} {i : Instr} (pre : BitVec 4)
    (h : decodeDuration cfg d = .ok i) : encode i = .duration d ∧ WellFormed cfg pre i := by
  by_cases hd : d < 2 ^ cfg.durW
  · rw [decodeDuration_of_lt hd] at h
    cases h
    exact ⟨encode_pulseRow d _, wellFormed_pulseRow pre hd⟩
  · rw [decodeDuration_of_not_lt hd] at h
    cases h

theorem decodeAddressByte_sound {cfg : Config} {a : Byte} {i : Instr} (pre : BitVec 4)
    (h : decodeAddressByte cfg a = .ok i) : encode i = .addressByte a ∧ WellFormed cfg pre i := by
  rcases addressByte_cases a with ⟨x, rfl⟩ | ⟨x, rfl⟩ | ⟨x, rfl⟩
  · rw [decodeAddressByte_notAccessoryByte0] at h
    cases h
    exact ⟨rfl, trivial⟩
  · rw [decodeAddressByte_notAccessoryByte11] at h
    cases h
    exact ⟨rfl, trivial⟩
  · rw [decodeAddressByte_accessoryByte] at h
    split_ifs at h with hne
    cases h
    exact ⟨rfl, hne⟩

theorem decodeMappedFrame_sound {f : FrameBody} {i : Instr} (cfg : Config) (pre : BitVec 4)
    (h : decodeMappedFrame f = .ok i) : encode i = .mappedFrame f ∧ WellFormed cfg pre i := by
  by_cases hm : (frameAddr f).extractLsb' 6 2 = 0b10#2
  · rw [decodeMappedFrame_of_marker hm] at h
    cases h
    exact ⟨by rw [encode_setRow, frameBody_of_marker hm], wellFormed_setRow _ _ _ _ _ _ _ _ _⟩
  · rw [decodeMappedFrame_of_not_marker hm] at h
    cases h

/-- What a block reads from a symbol is a well-formed row whose encoding is the symbol. -/
theorem decode_sound {cfg : Config} {pre : BitVec 4} {sym : Symbol} {i : Instr}
    (h : decode cfg pre sym = .ok i) : encode i = sym ∧ WellFormed cfg pre i := by
  cases sym with
  | duration d => exact decodeDuration_sound pre h
  | syncBit b =>
    cases h
    exact decodeSyncBit_sound cfg pre b
  | addressByte a => exact decodeAddressByte_sound pre h
  | mappedFrame f => exact decodeMappedFrame_sound cfg pre h
  | checkedFrame f =>
    cases h
    exact ⟨congrArg Symbol.checkedFrame (frameBody_fields f), trivial⟩

/-- Settles O55: the symbol is of the format that its row is encoded in. -/
theorem encodeOfDecode : Obligations.EncodeOfDecode := fun _ _ _ _ h => (decode_sound h).1

/-- Settles O56: the block tests the row's condition before it reads the row. -/
theorem decodeGivesWellFormed : Obligations.DecodeGivesWellFormed := fun _ _ _ _ h => (decode_sound h).2

/-- Settles O57: each word is the encoding of its row, whose condition holds under `CFG0`. -/
theorem writtenOutWordsDecode : Obligations.WrittenOutWordsDecode := by
  have decodes (pre : BitVec 4) (i : Instr) (hi : WellFormed Config.cfg0 pre i) :
      decode Config.cfg0 pre (encode i) = .ok i := decodeOfEncode Config.cfg0 pre i (by decide) hi
  exact ⟨decodes 0#4 (.pulseZero 100) (by decide), decodes 0#4 (.pulseOne 55) (by decide),
    decodes 0#4 (.pulseInvalid 54) (by decide), decodes 0#4 .syncOne trivial,
    decodes 10#4 .syncStart (by decide), decodes 9#4 .syncIdle (by decide),
    decodes 0#4 (.discardNotacc0 0b1000010#7) trivial,
    decodes 0#4 (.discardNotacc11 0b000010#6) trivial,
    decodes 0#4 (.discardOtheraddr 0b000111#6) (by decide),
    decodes 0#4 (.setO1On 0b000010#6 false 0b10000#5 false 0x01#8 true) trivial,
    decodes 0#4 (.checksum 0x82#8 false 0x83#8 false 0x01#8 true) trivial⟩

end Sys2Proof
end

section
/-! SUPPORT. Runs of bits: the core consumes the bits that its durations spell, eight of them fill a byte
register, and a frame body is three bytes, two separators and a terminator (30_encoding.md R80, R83;
42_byte_assembler.md R140 to R144). -/

namespace Sys2Proof.Machine

/-! A run of bits. -/

/-- The steps of R162 on bits in the order they arrive. -/
def consumeBits (bs : List Bit) (s : State) : State := bs.foldl (fun s b => consumeBit b s) s

@[simp] theorem consumeBits_nil (s : State) : consumeBits [] s = s := rfl

@[simp] theorem consumeBits_cons (b : Bit) (bs : List Bit) (s : State) :
    consumeBits (b :: bs) s = consumeBits bs (consumeBit b s) := rfl

theorem consumeBits_append (bs cs : List Bit) (s : State) :
    consumeBits (bs ++ cs) s = consumeBits cs (consumeBits bs s) := List.foldl_append

theorem consumeBit_input (b : Bit) (s : State) : (consumeBit b s).input = s.input.tail :=
  (tableRow_consumeBit b s).input_eq

theorem durationStep_of_spells {s : State} {d : Nat} {b : Bit} (h : Spells s.cfg d b) :
    durationStep d s = consumeBit b s := by
  obtain ⟨-, hclass⟩ := h
  cases b <;> simp [durationStep, hclass]

theorem step_of_spells {s : State} {d : Nat} {b : Bit} {ps : List Pins} (hl : s.cfg.Legal)
    (hin : s.input = measurement d :: ps) (h : Spells s.cfg d b) : step s = .next (consumeBit b s) := by
  have hd : d < 2 ^ s.cfg.durW := h.1
  rw [step_of_measurement hl hin hd, durationStep_of_spells h]

/-- Durations that spell bits run the steps on those bits, one an edge. -/
theorem runEdges_of_spellsBits {s : State} {ds : List Nat} {bs : List Bit} {ps : List Pins}
    (hl : s.cfg.Legal) (hin : s.input = measurements ds ++ ps) (h : SpellsBits s.cfg ds bs) :
    runEdges bs.length s = .next (consumeBits bs s) := by
  induction bs generalizing ds s with
  | nil => rfl
  | cons b bs ih =>
    cases ds with
    | nil => exact h.elim
    | cons d ds =>
      obtain ⟨hd, hds⟩ := h
      rw [List.length_cons, runEdges_succ _ (step_of_spells hl hin hd), consumeBits_cons]
      refine ih (ds := ds) ?_ ?_ ?_
      · rwa [consumeBit_cfg]
      · rw [consumeBit_input, hin]
        rfl
      · rwa [consumeBit_cfg]

/-- The samples that are left when the spelled bits are consumed. -/
theorem input_drop_of_spellsBits {s : State} {ds : List Nat} {bs : List Bit} {ps : List Pins}
    (hin : s.input = measurements ds ++ ps) (h : SpellsBits s.cfg ds bs) :
    s.input.drop bs.length = ps := by
  rw [hin]
  exact List.drop_left' (by rw [measurements, List.length_map, spellsBits_length h])

/-! Eight bits of a byte. -/

/-- Eight shifts leave nothing of what the register held (42_byte_assembler.md R140). -/
theorem foldl_shiftIn_wireBits (r b : Byte) : (wireBits b).foldl shiftIn r = b := by
  refine BitVec.eq_of_getLsbD_eq fun i hi => ?_
  simp only [wireBits, List.foldl_cons, List.foldl_nil, shiftIn_getLsbD]
  interval_cases i <;> simp

/-- A register that takes its bits by shifts, the eighth at index 7, is full of the byte after the eight.
`hold r i ps` is the state with `r` in the register, index `i` and the samples `ps`; `full` the state
after the eighth bit. -/
theorem consumeBits_wireBits {hold : Byte → BitVec 3 → List Pins → State}
    {full : Byte → List Pins → State}
    (shift : ∀ r i ps b, i ≠ 7#3 → consumeBit b (hold r i ps) = hold (shiftIn r b) (i + 1#3) ps.tail)
    (last : ∀ r ps b, consumeBit b (hold r 7#3 ps) = full (shiftIn r b) ps.tail)
    (b r : Byte) (ps : List Pins) : consumeBits (wireBits b) (hold r 0#3 ps) = full b (ps.drop 8) :=
  calc consumeBits (wireBits b) (hold r 0#3 ps)
    _ = full ((wireBits b).foldl shiftIn r) (ps.drop 8) := by
        simp [wireBits, shift, last, ← List.drop_one, List.drop_drop]
    _ = full b (ps.drop 8) := by rw [foldl_shiftIn_wireBits]

/-- The state after a fetched bit, with `r` in the address register, index `i` and the samples `ps`. -/
def addrHeld (s : State) (r : Byte) (i : BitVec 3) (ps : List Pins) : State :=
  { s with input := ps, actValid := false, retry := 0, addr := r, idx := i }

/-- As `addrHeld`, for the command register. -/
def cmdHeld (s : State) (r : Byte) (i : BitVec 3) (ps : List Pins) : State :=
  { s with input := ps, actValid := false, retry := 0, cmd := r, idx := i }

/-- As `addrHeld`, for the checksum register. -/
def chkHeld (s : State) (r : Byte) (i : BitVec 3) (ps : List Pins) : State :=
  { s with input := ps, actValid := false, retry := 0, chk := r, idx := i }

/-- Eight bits in `ADDR` complete the address byte and run the filter on it. -/
theorem consumeBits_wireBits_of_addr (a : Byte) {s : State} (hst : s.st = .addr) (hidx : s.idx = 0#3) :
    consumeBits (wireBits a) s = applyFilter (addrHeld s a 0#3 (s.input.drop 8)) := by
  have hfill := consumeBits_wireBits (hold := addrHeld s)
    (full := fun r ps => applyFilter (addrHeld s r 0#3 ps)) ?shift ?last a s.addr s.input
  case shift =>
    intro r i ps b hi
    rw [consumeBit_of_addr b (s := addrHeld s r i ps) hst]
    obtain ⟨-, h⟩ | ⟨h7, -⟩ | ⟨h7, -⟩ := addrBit_cases b (bitFetched (addrHeld s r i ps))
    · exact h
    · exact absurd h7 hi
    · exact absurd h7 hi
  case last =>
    intro r ps b
    rw [consumeBit_of_addr b (s := addrHeld s r 7#3 ps) hst]
    rfl
  rw [← hfill, ← hidx]
  rfl

/-- Eight bits in `CMD` fill the command byte. -/
theorem consumeBits_wireBits_of_cmd (c : Byte) {s : State} (hst : s.st = .cmd) (hidx : s.idx = 0#3) :
    consumeBits (wireBits c) s = cmdHeld { s with st := .ib2 } c 0#3 (s.input.drop 8) := by
  have hfill := consumeBits_wireBits (hold := cmdHeld s)
    (full := fun r ps => cmdHeld { s with st := .ib2 } r 0#3 ps) ?shift ?last c s.cmd s.input
  case shift =>
    intro r i ps b hi
    rw [consumeBit_of_cmd b (s := cmdHeld s r i ps) hst]
    obtain ⟨-, h⟩ | ⟨h7, -⟩ := cmdBit_cases b (bitFetched (cmdHeld s r i ps))
    · exact h
    · exact absurd h7 hi
  case last =>
    intro r ps b
    rw [consumeBit_of_cmd b (s := cmdHeld s r 7#3 ps) hst]
    rfl
  rw [← hfill, ← hidx]
  rfl

/-- Eight bits in `CHK` fill the checksum byte. -/
theorem consumeBits_wireBits_of_chk (k : Byte) {s : State} (hst : s.st = .chk) (hidx : s.idx = 0#3) :
    consumeBits (wireBits k) s = chkHeld { s with st := .term } k 0#3 (s.input.drop 8) := by
  have hfill := consumeBits_wireBits (hold := chkHeld s)
    (full := fun r ps => chkHeld { s with st := .term } r 0#3 ps) ?shift ?last k s.chk s.input
  case shift =>
    intro r i ps b hi
    rw [consumeBit_of_chk b (s := chkHeld s r i ps) hst]
    obtain ⟨-, h⟩ | ⟨h7, -⟩ := chkBit_cases b (bitFetched (chkHeld s r i ps))
    · exact h
    · exact absurd h7 hi
  case last =>
    intro r ps b
    rw [consumeBit_of_chk b (s := chkHeld s r 7#3 ps) hst]
    rfl
  rw [← hfill, ← hidx]
  rfl

/-! The frame body. -/

theorem applyFilter_of_passes {s : State} (h : passesFilter s.cfg s.addr = true) :
    applyFilter s = { s with st := .ib1 } := if_pos h

theorem separator1_eq (b : Bit) (s : State) : separator1 b s = { s with
    st := .cmd, cntAddr := if b then satAdd s.cfg.cntW s.cntAddr 1 else s.cntAddr } := by
  cases b <;> rfl

theorem separator2_eq (b : Bit) (s : State) : separator2 b s = { s with
    st := .chk, cntCmd := if b then satAdd s.cfg.cntW s.cntCmd 1 else s.cntCmd } := by
  cases b <;> rfl

/-- The state in `TERM` when the terminator of the frame has been fetched: the bytes are in the registers
and the separators are counted (43_packet_decoder.md R168 to R173). -/
def bodyHeld (a : Byte) (s1 : Bit) (c : Byte) (s2 : Bit) (k : Byte) (s : State) : State :=
  { s with
    input := s.input.drop 27, actValid := false, retry := 0, idx := 0#3, st := .term
    addr := a, cmd := c, chk := k
    cntAddr := if s1 then satAdd s.cfg.cntW s.cntAddr 1 else s.cntAddr
    cntCmd := if s2 then satAdd s.cfg.cntW s.cntCmd 1 else s.cntCmd }

/-- The bits of a frame body whose address passes the filter end in the terminator step on its bytes. -/
theorem consumeBits_frameWireBits {s : State} {a : Byte} (s1 : Bit) (c : Byte) (s2 : Bit) (k : Byte)
    (t : Bit) (hst : s.st = .addr) (hidx : s.idx = 0#3) (hpass : passesFilter s.cfg a = true) :
    consumeBits (frameWireBits a s1 c s2 k t) s =
      terminate (functionNumber c) (desiredValue c) t (bodyHeld a s1 c s2 k s) := by
  simp only [frameWireBits, consumeBits_append, consumeBits_cons, consumeBits_nil]
  rw [consumeBits_wireBits_of_addr a hst hidx, applyFilter_of_passes (s := addrHeld s a _ _) hpass,
    consumeBit_of_ib1 s1 rfl, separator1_eq, consumeBits_wireBits_of_cmd c rfl rfl,
    consumeBit_of_ib2 s2 rfl, separator2_eq, consumeBits_wireBits_of_chk k rfl rfl,
    consumeBit_of_term t rfl]
  simp [addrHeld, cmdHeld, chkHeld, bodyHeld, bitFetched, beginEdge, ← List.drop_one, List.drop_drop]

/-- Settles O47: the body ends in the terminator step, whose two cases are the two clauses. -/
theorem frameBodyRunsToItsEnd : Obligations.FrameBodyRunsToItsEnd := by
  intro s ds ps a s1 c s2 k t hl hst hidx hpass hin hbits
  have hrun : runEdges 27 s =
      .next (terminate (functionNumber c) (desiredValue c) t (bodyHeld a s1 c s2 k s)) := by
    rw [← consumeBits_frameWireBits s1 c s2 k t hst hidx hpass]
    exact runEdges_of_spellsBits hl hin hbits
  have hinput : s.input.drop 27 = ps := input_drop_of_spellsBits hin hbits
  rw [hrun, ← hinput]
  rcases terminate_cases (functionNumber c) (desiredValue c) t (bodyHeld a s1 c s2 k s) with
    ⟨hchk, he⟩ | ⟨hchk, he⟩ <;> rw [he, toNat_not_eq_badTerminator]
  · exact ⟨fun _ => rfl, fun hne => absurd hchk hne⟩
  · exact ⟨fun heq => absurd heq hchk, fun _ => rfl⟩

end Sys2Proof.Machine
end

section
/-! SUPPORT. Noise: a run of `Invalid` durations is retried below the cap and given up at it, and what was
retried leaves no trace on the next bit but its count (40_bit_classifier.md R100, R103 to R106). -/

namespace Sys2Proof.Machine

/-! The classifier's ranges. -/

/-- Settles O21: the thresholds in order make `d < T_ONE` the whole condition of an `Invalid`. -/
theorem classifierRanges : Obligations.ClassifierRanges := by
  intro cfg d hle
  refine ⟨classify_eq_zero_iff cfg d, classify_eq_one_iff cfg d, ?_⟩
  rw [classify_eq_invalid_iff]
  exact ⟨fun ⟨hone, _⟩ => hone, fun hone => ⟨hone, Nat.lt_of_lt_of_le hone hle⟩⟩

/-! The step on noise. -/

/-- The state after `n` edges of noise that were all retried (40_bit_classifier.md R103, R104). -/
def noiseRetried (n : Nat) (s : State) : State :=
  { s with
    input := s.input.drop n, actValid := false, retry := s.retry + n
    cntNoise := satAdd s.cfg.cntW s.cntNoise n }

theorem noiseRetried_noiseRetried (m n : Nat) (s : State) :
    noiseRetried n (noiseRetried m s) = noiseRetried (m + n) s := by
  simp [noiseRetried, List.drop_drop, satAdd_satAdd, Nat.add_assoc]

theorem consumeInvalid_of_below_cap {s : State} (h : s.retry + 1 < s.cfg.retryCap) :
    consumeInvalid s = noiseRetried 1 s := by
  obtain ⟨-, he⟩ | ⟨hcap, -⟩ := absorbInvalid_cases (beginEdge s)
  · rw [consumeInvalid, he, noiseRetried, List.drop_one]
    rfl
  · exact absurd h (Nat.not_lt.2 hcap)

theorem consumeInvalid_of_at_cap {s : State} (h : s.cfg.retryCap ≤ s.retry + 1) :
    consumeInvalid s = abort (noiseRetried 1 s) := by
  obtain ⟨hcap, -⟩ | ⟨-, he⟩ := absorbInvalid_cases (beginEdge s)
  · exact absurd hcap (Nat.not_lt.2 h)
  · rw [consumeInvalid, he, noiseRetried, List.drop_one]
    rfl

/-- Settles O7: the row's meaning is the step on noise, whose two cases are the two clauses. -/
theorem pulseInvalidRetriesOrGivesUp : Obligations.PulseInvalidRetriesOrGivesUp := by
  intro d s
  rw [exec_eq_consumeClassified, ← List.drop_one]
  exact ⟨fun h => congrArg _ (consumeInvalid_of_below_cap h),
    fun h => congrArg _ (consumeInvalid_of_at_cap h)⟩

/-! A run of noise. -/

theorem iterate_consumeInvalid_of_below_cap {s : State} {n : Nat}
    (h : s.retry + (n + 1) < s.cfg.retryCap) : consumeInvalid^[n + 1] s = noiseRetried (n + 1) s := by
  induction n with
  | zero => exact consumeInvalid_of_below_cap h
  | succ n ih =>
    rw [Function.iterate_succ_apply', ih (by omega),
      consumeInvalid_of_below_cap (s := noiseRetried (n + 1) s) h, noiseRetried_noiseRetried]

/-- The last duration of a run that reaches the cap finds the ones before it retried, and aborts. -/
theorem iterate_consumeInvalid_of_at_cap {s : State} {n : Nat}
    (h : s.retry + (n + 1) = s.cfg.retryCap) :
    consumeInvalid^[n + 1] s = abort (noiseRetried (n + 1) s) := by
  cases n with
  | zero => exact consumeInvalid_of_at_cap h.ge
  | succ n =>
    rw [Function.iterate_succ_apply', iterate_consumeInvalid_of_below_cap (by omega),
      consumeInvalid_of_at_cap (s := noiseRetried (n + 1) s) h.ge, noiseRetried_noiseRetried]

theorem consumeInvalid_input (s : State) : (consumeInvalid s).input = s.input.tail :=
  (tableRow_consumeInvalid s).input_eq

theorem step_of_spellsNoise {s : State} {d : Nat} {ps : List Pins} (hl : s.cfg.Legal)
    (hin : s.input = measurement d :: ps) (h : SpellsNoise s.cfg d) :
    step s = .next (consumeInvalid s) := by
  obtain ⟨hd, hclass⟩ := h
  rw [step_of_measurement hl hin hd, durationStep, hclass]

/-- Durations that are noise run the step on noise, one an edge. -/
theorem runEdges_of_spellsNoise {s : State} {ds : List Nat} {ps : List Pins} (hl : s.cfg.Legal)
    (hin : s.input = measurements ds ++ ps) (h : ∀ d ∈ ds, SpellsNoise s.cfg d) :
    runEdges ds.length s = .next (consumeInvalid^[ds.length] s) := by
  induction ds generalizing s with
  | nil => rfl
  | cons d ds ih =>
    obtain ⟨hd, hds⟩ := List.forall_mem_cons.1 h
    rw [List.length_cons, runEdges_succ _ (step_of_spellsNoise hl hin hd), Function.iterate_succ_apply]
    refine ih ?_ ?_ ?_
    · rwa [consumeInvalid_cfg]
    · rw [consumeInvalid_input, hin]
      rfl
    · rwa [consumeInvalid_cfg]

/-- Settles O43: the run is the iterated step on noise, retried throughout or given up at its end. -/
theorem giveUpAtTheCap : Obligations.GiveUpAtTheCap := by
  intro s ds ps hl hne hin hnoise
  have hdrop : s.input.drop ds.length = ps := by
    rw [hin]
    exact List.drop_left' (List.length_map _)
  rw [runEdges_of_spellsNoise hl hin hnoise, ← hdrop]
  obtain ⟨n, hn⟩ := Nat.exists_eq_add_one.2 (List.length_pos_iff.2 hne)
  rw [hn]
  exact ⟨fun h => congrArg _ (iterate_consumeInvalid_of_below_cap h),
    fun h => congrArg _ (iterate_consumeInvalid_of_at_cap h)⟩

/-! A bit after noise. -/

/-- The state with another count of noise. -/
def setNoise (n : Nat) (s : State) : State := { s with cntNoise := n }

theorem observe_setNoise (n : Nat) (b : Bit) (s : State) :
    observe b (setNoise n s) = setNoise n (observe b s) := by
  rw [observe, observe, apply_ite (setNoise n), apply_ite (setNoise n)]
  rfl

theorem addrBit_setNoise (n : Nat) (b : Bit) (s : State) :
    addrBit b (setNoise n s) = setNoise n (addrBit b s) := by
  unfold addrBit applyFilter
  rw [apply_ite (setNoise n), apply_ite (setNoise n)]
  rfl

theorem separator1_setNoise (n : Nat) (b : Bit) (s : State) :
    separator1 b (setNoise n s) = setNoise n (separator1 b s) := by
  cases b <;> rfl

theorem separator2_setNoise (n : Nat) (b : Bit) (s : State) :
    separator2 b (setNoise n s) = setNoise n (separator2 b s) := by
  cases b <;> rfl

theorem terminate_setNoise (n : Nat) (fn : BitVec 2) (v t : Bit) (s : State) :
    terminate fn v t (setNoise n s) = setNoise n (terminate fn v t s) := by
  have herr : checksumError (setNoise n s).addr (setNoise n s).cmd (setNoise n s).chk =
    checksumError s.addr s.cmd s.chk := rfl
  unfold terminate
  rw [herr]
  cases checksumError s.addr s.cmd s.chk <;> rfl

/-- No decoder state reads or writes the count of noise on a bit. -/
theorem bitStep_setNoise (n : Nat) (b : Bit) (s : State) :
    bitStep b (setNoise n s) = setNoise n (bitStep b s) := by
  have hst : (setNoise n s).st = s.st := rfl
  unfold bitStep
  rw [hst]
  cases s.st with
  | sync => exact observe_setNoise n b s
  | addr => exact addrBit_setNoise n b s
  | ib1 => exact separator1_setNoise n b s
  | cmd => rfl
  | ib2 => exact separator2_setNoise n b s
  | chk => rfl
  | term => exact terminate_setNoise n _ _ b s
  | unused => exact observe_setNoise n b s

/-- A bit clears the retries of the noise before it, so only their count stays (40_bit_classifier.md
R106). -/
theorem consumeBit_noiseRetried (n : Nat) (b : Bit) (s : State) :
    consumeBit b (noiseRetried n s) =
      setNoise (satAdd s.cfg.cntW s.cntNoise n) (consumeBit b { s with input := s.input.drop n }) :=
  bitStep_setNoise _ b (bitFetched { s with input := s.input.drop n })

/-- Settles O42: the `Invalid` is retried, and the bit after it keeps nothing of it but the count. -/
theorem noiseIsAbsorbed : Obligations.NoiseIsAbsorbed := by
  intro s t d e b ps hl hcap hin hnoise hbit hstep
  have hdrop : s.input.drop 1 = measurement e :: ps := by
    rw [hin]
    rfl
  have hquiet : consumeBit b { s with input := s.input.drop 1 } = t := by
    rw [← hdrop, step_of_spells (s := { s with input := s.input.drop 1 }) hl hdrop hbit] at hstep
    cases hstep
    rfl
  have hfirst : step s = .next (noiseRetried 1 s) := by
    rw [step_of_spellsNoise hl hin hnoise, consumeInvalid_of_below_cap hcap]
  have hsecond : step (noiseRetried 1 s) = .next (consumeBit b (noiseRetried 1 s)) :=
    step_of_spells (s := noiseRetried 1 s) hl hdrop hbit
  rw [runEdges_succ 1 hfirst, runEdges_succ 0 hsecond, runEdges_zero, consumeBit_noiseRetried, hquiet]
  rfl

end Sys2Proof.Machine
end

section
/-! SUPPORT. The frame synchronizer: what a bit does in `SYNC`, what a run of ones and the zero
after it decide, and that `pre` is the synchronizer's alone (41_frame_synchronizer.md R121 to R128). -/

namespace Sys2Proof.Machine

/-! One bit in `SYNC`. -/

/-- The operations write `st` only for the unused code (43_packet_decoder.md R164). -/
theorem preambleBit_of_sync {s : State} (h : s.st = .sync) :
    preambleBit s = { s with pre := preUp s.pre } := by rw [preambleBit, ← h]

theorem idleZero_of_sync {s : State} (h : s.st = .sync) : idleZero s = { s with pre := 0#4 } := by
  rw [idleZero, ← h]

theorem consumeBit_true_of_sync {s : State} (h : s.st = .sync) :
    consumeBit true s = { bitFetched s with pre := preUp s.pre } := by
  rw [consumeBit_of_inSync true ((inSync_iff s).2 (.inl h))]
  exact preambleBit_of_sync (s := bitFetched s) h

theorem consumeBit_false_of_sync_of_inStartRange {s : State} (h : s.st = .sync)
    (hpre : InStartRange s.pre) : consumeBit false s = frameStart (bitFetched s) := by
  rw [consumeBit_of_inSync false ((inSync_iff s).2 (.inl h)),
    observe_false_of_inStartRange (s := bitFetched s) hpre]

theorem consumeBit_false_of_sync_of_not_inStartRange {s : State} (h : s.st = .sync)
    (hpre : ¬ InStartRange s.pre) : consumeBit false s = { bitFetched s with pre := 0#4 } := by
  rw [consumeBit_of_inSync false ((inSync_iff s).2 (.inl h)),
    observe_false_of_not_inStartRange (s := bitFetched s) hpre,
    idleZero_of_sync (s := bitFetched s) h]

/-- Settles O1: the row's meaning is the step on a one, which counts `pre` up. -/
theorem syncOneCountsPreamble : Obligations.SyncOneCountsPreamble := by
  intro s hst
  rw [exec_eq_consumeClassified]
  exact congrArg _ (consumeBit_true_of_sync hst)

/-- Settles O2: the row's meaning is the step on a zero, whose count here starts a frame. -/
theorem syncStartOpensFrame : Obligations.SyncStartOpensFrame := by
  intro s hst hmin hmax
  rw [exec_eq_consumeClassified]
  exact congrArg _ (consumeBit_false_of_sync_of_inStartRange hst ⟨hmin, hmax⟩)

/-- Settles O3: the row's meaning is the step on a zero, whose count here is out of the range. -/
theorem syncIdleClearsPreamble : Obligations.SyncIdleClearsPreamble := by
  intro s hst hout
  have hpre : ¬ InStartRange s.pre := fun ⟨hmin, hmax⟩ =>
    hout.elim (Nat.not_lt.2 hmin) (Nat.not_lt.2 hmax)
  rw [exec_eq_consumeClassified]
  exact congrArg _ (consumeBit_false_of_sync_of_not_inStartRange hst hpre)

/-! A run of ones and the zero after it. -/

/-- The state after a zero in `SYNC` that `count` ones precede, with the samples `ps` left
(41_frame_synchronizer.md R122, R123). -/
def zeroAfterOnes (count : Nat) (ps : List Pins) (s : State) : State :=
  { s with
    input := ps, actValid := false, retry := 0, pre := 0#4
    st := if 10 ≤ count ∧ count ≤ 14 then .addr else .sync
    idx := if 10 ≤ count ∧ count ≤ 14 then 0#3 else s.idx }

theorem consumeBit_false_of_sync {s : State} (h : s.st = .sync) :
    consumeBit false s = zeroAfterOnes s.pre.toNat s.input.tail s := by
  by_cases hpre : 10 ≤ s.pre.toNat ∧ s.pre.toNat ≤ 14
  · rw [consumeBit_false_of_sync_of_inStartRange h hpre, zeroAfterOnes, if_pos hpre, if_pos hpre]
    rfl
  · rw [consumeBit_false_of_sync_of_not_inStartRange h hpre, zeroAfterOnes, if_neg hpre,
      if_neg hpre, ← h]
    rfl

/-- The saturated count 15 is past the range, as every count it stands for is, and stays so
(41_frame_synchronizer.md R124). -/
theorem startRange_preUp_add_iff (p : BitVec 4) (n : Nat) :
    (10 ≤ (preUp p).toNat + n ∧ (preUp p).toNat + n ≤ 14) ↔
      10 ≤ p.toNat + (n + 1) ∧ p.toNat + (n + 1) ≤ 14 := by
  rw [preUp_toNat]
  omega

/-- A zero keeps nothing of the one before it but the count. -/
theorem zeroAfterOnes_consumeBit_true {s : State} (h : s.st = .sync) (n : Nat) (ps : List Pins) :
    zeroAfterOnes ((consumeBit true s).pre.toNat + n) ps (consumeBit true s) =
      zeroAfterOnes (s.pre.toNat + (n + 1)) ps s := by
  rw [consumeBit_true_of_sync h]
  simp only [zeroAfterOnes, startRange_preUp_add_iff]
  rfl

/-- The count that decides is the unbounded one, ones left over from before included
(41_frame_synchronizer.md R124, R127). -/
theorem consumeBits_ones_zero {s : State} (h : s.st = .sync) (n : Nat) :
    consumeBits (List.replicate n true ++ [false]) s =
      zeroAfterOnes (s.pre.toNat + n) (s.input.drop (n + 1)) s := by
  induction n generalizing s with
  | zero => rw [List.drop_one]; exact consumeBit_false_of_sync h
  | succ n ih =>
    have hst : (consumeBit true s).st = .sync := by rw [consumeBit_true_of_sync h]; exact h
    rw [List.replicate_succ, List.cons_append, consumeBits_cons, ih hst,
      zeroAfterOnes_consumeBit_true h, consumeBit_input, List.drop_tail]

theorem spellsBits_append {cfg : Config} {ds es : List Nat} {bs cs : List Bit}
    (h : SpellsBits cfg ds bs) (h' : SpellsBits cfg es cs) :
    SpellsBits cfg (ds ++ es) (bs ++ cs) := by
  induction bs generalizing ds with
  | nil =>
    cases ds with
    | nil => exact h'
    | cons d ds => exact h.elim
  | cons b bs ih =>
    cases ds with
    | nil => exact h.elim
    | cons d ds =>
      obtain ⟨hd, hds⟩ := h
      exact ⟨hd, ih hds⟩

/-- Settles O44: the edges consume the ones and the zero, and the zero finds the unbounded count. -/
theorem preambleRunDecidesFrameStart : Obligations.PreambleRunDecidesFrameStart := by
  intro s ds z ps hl hst hin hones hzero
  have hbits : SpellsBits s.cfg (ds ++ [z]) (List.replicate ds.length true ++ [false]) :=
    spellsBits_append hones ⟨hzero, trivial⟩
  have hlen : (List.replicate ds.length true ++ [false]).length = ds.length + 1 := by simp
  have hrun := runEdges_of_spellsBits hl hin hbits
  have hleft := input_drop_of_spellsBits hin hbits
  rw [hlen] at hrun hleft
  rw [hrun, consumeBits_ones_zero hst, hleft]
  rfl

/-! `pre` inside a packet attempt. -/

/-- A row of a packet state keeps `pre` and stays out of `SYNC`, or enters `SYNC` and clears `pre`
(41_frame_synchronizer.md R126, R128). -/
theorem TableRow.pre_kept_or_sync_entered {s t : State} {x : ClassifiedInput} (h : TableRow s x t)
    (hs : s.st ≠ .sync) (hu : s.st ≠ .unused) :
    (t.st ≠ .sync ∧ t.pre = s.pre) ∨ (t.st = .sync ∧ t.pre = 0#4) := by
  cases h with
  | syncOne hst => exact (hst.elim hs hu).elim
  | syncStart hst => exact (hst.elim hs hu).elim
  | syncIdle hst => exact (hst.elim hs hu).elim
  | givenUp => exact .inr ⟨rfl, rfl⟩
  | addrDiscard => exact .inr ⟨rfl, rfl⟩
  | termGood => exact .inr ⟨rfl, rfl⟩
  | termBad => exact .inr ⟨rfl, rfl⟩
  | retried => exact .inl ⟨hs, rfl⟩
  | addrShift => exact .inl ⟨hs, rfl⟩
  | cmdShift => exact .inl ⟨hs, rfl⟩
  | chkShift => exact .inl ⟨hs, rfl⟩
  | _ => exact .inl ⟨nofun, rfl⟩

/-- The edges that run no row do the same: an idle edge keeps both, a reset clears both. -/
theorem step_pre_kept_or_sync_entered {s t : State} (hs : s.st ≠ .sync) (hu : s.st ≠ .unused)
    (h : step s = .next t) : (t.st ≠ .sync ∧ t.pre = s.pre) ∨ (t.st = .sync ∧ t.pre = 0#4) := by
  rcases step_next_tableRow h with rfl | ⟨p, ps, -, -, rfl⟩ | ⟨x, hrow⟩
  · exact .inl ⟨hs, beginEdge_pre s⟩
  · exact .inr ⟨rfl, rfl⟩
  · exact hrow.pre_kept_or_sync_entered hs hu

/-- Settles O39: of the two ways a step goes, the second is the return to `SYNC`. -/
theorem preambleUntouchedInsidePacket : Obligations.PreambleUntouchedInsidePacket := by
  intro s t hs hu h
  exact (step_pre_kept_or_sync_entered hs hu h).imp_left And.right

/-- Settles O40: of the two ways a step goes, only the second ends in `SYNC`. -/
theorem entryToSyncClearsPreamble : Obligations.EntryToSyncClearsPreamble := by
  intro s t hs hu h hsync
  obtain ⟨hne, -⟩ | ⟨-, hpre⟩ := step_pre_kept_or_sync_entered hs hu h
  · exact absurd hsync hne
  · exact hpre

end Sys2Proof.Machine
end

section
/-! SUPPORT. The byte assembler: eight bits fill a register whatever it held, so of a byte register only
the bits received in this packet attempt can matter (42_byte_assembler.md R140 to R147). -/

namespace Sys2Proof.Machine

/-! A filled register. -/

/-- Settles O45: the edges consume the byte's bits, and eight of them fill the state's register. -/
theorem eightBitsFillCmdAndChk : Obligations.EightBitsFillCmdAndChk := by
  intro s ds ps b hl hidx hin hbits
  have hrun : runEdges 8 s = .next (consumeBits (wireBits b) s) := runEdges_of_spellsBits hl hin hbits
  have hinput : s.input.drop 8 = ps := input_drop_of_spellsBits hin hbits
  rw [hrun, ← hinput]
  exact ⟨fun hst => congrArg _ (consumeBits_wireBits_of_cmd b hst hidx),
    fun hst => congrArg _ (consumeBits_wireBits_of_chk b hst hidx)⟩

/-! The received bits of a register. -/

/-- One more bit is received, and the bits received before move up (42_byte_assembler.md R140). -/
theorem lowBitsAgree_shiftIn {n : Nat} {x y : Byte} (b : Bit) (h : LowBitsAgree n x y) :
    LowBitsAgree (n + 1) (shiftIn x b) (shiftIn y b) := by
  intro i hi
  rw [shiftIn_getLsbD, shiftIn_getLsbD]
  cases i with
  | zero => rfl
  | succ i => rw [Nat.add_sub_cancel, h i (Nat.lt_of_succ_lt_succ hi)]

theorem lowBitsAgree_zero (x y : Byte) : LowBitsAgree 0 x y := fun i hi => absurd hi (Nat.not_lt_zero i)

/-- At index 7 the next bit is the last, and the two registers hold the same byte. -/
theorem shiftIn_eq_of_lowBitsAgree {idx : BitVec 3} {x y : Byte} (b : Bit) (hidx : idx = 7#3)
    (h : LowBitsAgree idx.toNat x y) : shiftIn x b = shiftIn y b := by
  subst hidx
  exact BitVec.eq_of_getLsbD_eq (lowBitsAgree_shiftIn b h)

theorem lowBitsAgree_nextIdx {idx : BitVec 3} {x y : Byte} (b : Bit) (hidx : idx ≠ 7#3)
    (h : LowBitsAgree idx.toNat x y) : LowBitsAgree (nextIdx idx).toNat (shiftIn x b) (shiftIn y b) := by
  have hnext : (nextIdx idx).toNat = idx.toNat + 1 := by
    rw [nextIdx, if_neg hidx]
    bv_omega
  rw [hnext]
  exact lowBitsAgree_shiftIn b h

/-! What the relation says in each decoder state. -/

/-- The first clause of `SameButStaleBytes`: no field but the three byte registers differs. -/
def SameButBytes (s u : State) : Prop := u = { s with addr := u.addr, cmd := u.cmd, chk := u.chk }

section Relation

variable {s u : State}

theorem SameButBytes.cfg_eq (h : SameButBytes s u) : u.cfg = s.cfg := (congrArg State.cfg h :)

theorem SameButBytes.input_eq (h : SameButBytes s u) : u.input = s.input := (congrArg State.input h :)

theorem SameButBytes.st_eq (h : SameButBytes s u) : u.st = s.st := (congrArg State.st h :)

theorem SameButBytes.pre_eq (h : SameButBytes s u) : u.pre = s.pre := (congrArg State.pre h :)

theorem SameButBytes.idx_eq (h : SameButBytes s u) : u.idx = s.idx := (congrArg State.idx h :)

theorem SameButBytes.retry_eq (h : SameButBytes s u) : u.retry = s.retry := (congrArg State.retry h :)

theorem SameButBytes.outLevel_eq (h : SameButBytes s u) : u.outLevel = s.outLevel :=
  (congrArg State.outLevel h :)

theorem SameButBytes.actionPort_eq (h : SameButBytes s u) : actionPort u = actionPort s :=
  (congrArg actionPort h :)

theorem sameButStaleBytes_iff : SameButStaleBytes s u ↔
    SameButBytes s u ∧ AddrAgrees s u ∧ CmdAgrees s u ∧ ChkAgrees s u := Iff.rfl

theorem sameButStaleBytes_iff_of_sync (hst : s.st = .sync) :
    SameButStaleBytes s u ↔ SameButBytes s u := by
  simp only [sameButStaleBytes_iff, AddrAgrees, CmdAgrees, ChkAgrees, hst, and_true]

theorem sameButStaleBytes_iff_of_addr (hst : s.st = .addr) :
    SameButStaleBytes s u ↔ SameButBytes s u ∧ LowBitsAgree s.idx.toNat s.addr u.addr := by
  simp only [sameButStaleBytes_iff, AddrAgrees, CmdAgrees, ChkAgrees, hst, and_true]

theorem sameButStaleBytes_iff_of_ib1 (hst : s.st = .ib1) :
    SameButStaleBytes s u ↔ SameButBytes s u ∧ s.addr = u.addr := by
  simp only [sameButStaleBytes_iff, AddrAgrees, CmdAgrees, ChkAgrees, hst, and_true]

theorem sameButStaleBytes_iff_of_cmd (hst : s.st = .cmd) :
    SameButStaleBytes s u ↔
      SameButBytes s u ∧ s.addr = u.addr ∧ LowBitsAgree s.idx.toNat s.cmd u.cmd := by
  simp only [sameButStaleBytes_iff, AddrAgrees, CmdAgrees, ChkAgrees, hst, and_true]

theorem sameButStaleBytes_iff_of_ib2 (hst : s.st = .ib2) :
    SameButStaleBytes s u ↔ SameButBytes s u ∧ s.addr = u.addr ∧ s.cmd = u.cmd := by
  simp only [sameButStaleBytes_iff, AddrAgrees, CmdAgrees, ChkAgrees, hst, and_true]

theorem sameButStaleBytes_iff_of_chk (hst : s.st = .chk) :
    SameButStaleBytes s u ↔ SameButBytes s u ∧ s.addr = u.addr ∧ s.cmd = u.cmd ∧
      LowBitsAgree s.idx.toNat s.chk u.chk := by
  simp only [sameButStaleBytes_iff, AddrAgrees, CmdAgrees, ChkAgrees, hst]

/-- In `TERM` every bit was received in this attempt, so nothing is stale. -/
theorem sameButStaleBytes_iff_of_term (hst : s.st = .term) : SameButStaleBytes s u ↔ u = s := by
  simp only [sameButStaleBytes_iff, AddrAgrees, CmdAgrees, ChkAgrees, hst]
  constructor
  · rintro ⟨hu, haddr, hcmd, hchk⟩
    rw [SameButBytes, ← haddr, ← hcmd, ← hchk] at hu
    exact hu
  · rintro rfl
    exact ⟨rfl, rfl, rfl, rfl⟩

/-! The operations keep the relation. -/

theorem sameButStaleBytes_beginEdge (h : SameButStaleBytes s u) :
    SameButStaleBytes (beginEdge s) (beginEdge u) := by
  obtain ⟨hu, haddr, hcmd, hchk⟩ := h
  exact ⟨congrArg beginEdge hu, haddr, hcmd, hchk⟩

theorem sameButStaleBytes_bitFetched (h : SameButStaleBytes s u) :
    SameButStaleBytes (bitFetched s) (bitFetched u) := by
  obtain ⟨hu, haddr, hcmd, hchk⟩ := h
  exact ⟨congrArg bitFetched hu, haddr, hcmd, hchk⟩

/-- Noise is retried with the received bits kept, or given up with none of them received any more. -/
theorem sameButStaleBytes_absorbInvalid (h : SameButStaleBytes s u) :
    SameButStaleBytes (absorbInvalid s) (absorbInvalid u) := by
  obtain ⟨hu, haddr, hcmd, hchk⟩ := sameButStaleBytes_iff.1 h
  unfold absorbInvalid
  rw [hu.cfg_eq, hu.retry_eq]
  split
  · exact (sameButStaleBytes_iff_of_sync rfl).2 (congrArg (fun v : State => abort (countNoise v)) hu)
  · exact ⟨congrArg (fun v : State => { countNoise v with retry := s.retry + 1 }) hu, haddr, hcmd, hchk⟩

/-- The synchronizer looks at no byte register, and a frame starts with no bit received. -/
theorem sameButStaleBytes_observe (b : Bit) (hu : SameButBytes s u) :
    SameButStaleBytes (observe b s) (observe b u) := by
  unfold observe
  rw [hu.pre_eq]
  split_ifs
  · exact (sameButStaleBytes_iff_of_sync rfl).2 (congrArg preambleBit hu)
  · exact (sameButStaleBytes_iff_of_addr rfl).2 ⟨congrArg frameStart hu, lowBitsAgree_zero _ _⟩
  · exact (sameButStaleBytes_iff_of_sync rfl).2 (congrArg idleZero hu)

/-- The filter reads the whole address byte, all of it received. -/
theorem sameButStaleBytes_applyFilter (hu : SameButBytes s u) (haddr : s.addr = u.addr) :
    SameButStaleBytes (applyFilter s) (applyFilter u) := by
  have hpass : passesFilter u.cfg u.addr = passesFilter s.cfg s.addr := by rw [hu.cfg_eq, haddr]
  unfold applyFilter
  rw [hpass]
  split
  · exact (sameButStaleBytes_iff_of_ib1 rfl).2
      ⟨(congrArg (fun v : State => { v with st := .ib1 }) hu :), haddr⟩
  · exact (sameButStaleBytes_iff_of_sync rfl).2 (congrArg discardPacket hu)

/-- The address register with one more bit, before the filter looks at it. -/
def addrShifted (b : Bit) (s : State) : State :=
  { s with addr := shiftIn s.addr b, idx := nextIdx s.idx }

theorem addrBit_eq (b : Bit) (s : State) :
    addrBit b s = if s.idx = 7#3 then applyFilter (addrShifted b s) else addrShifted b s := rfl

theorem sameButStaleBytes_addrBit (b : Bit) (hst : s.st = .addr) (h : SameButStaleBytes s u) :
    SameButStaleBytes (addrBit b s) (addrBit b u) := by
  obtain ⟨hu, hbits⟩ := (sameButStaleBytes_iff_of_addr hst).1 h
  have hshift : SameButBytes (addrShifted b s) (addrShifted b u) := congrArg (addrShifted b) hu
  rw [addrBit_eq, addrBit_eq, hu.idx_eq]
  split
  next h7 => exact sameButStaleBytes_applyFilter hshift (shiftIn_eq_of_lowBitsAgree b h7 hbits)
  next h7 =>
    exact (sameButStaleBytes_iff_of_addr (s := addrShifted b s) hst).2
      ⟨hshift, lowBitsAgree_nextIdx b h7 hbits⟩

theorem sameButStaleBytes_cmdBit (b : Bit) (hst : s.st = .cmd) (h : SameButStaleBytes s u) :
    SameButStaleBytes (cmdBit b s) (cmdBit b u) := by
  obtain ⟨hu, haddr, hbits⟩ := (sameButStaleBytes_iff_of_cmd hst).1 h
  have hshift : SameButBytes (cmdBit b s) (cmdBit b u) := congrArg (cmdBit b) hu
  by_cases h7 : s.idx = 7#3
  · have hnext : (cmdBit b s).st = .ib2 := by rw [cmdBit_st, if_pos h7]
    exact (sameButStaleBytes_iff_of_ib2 hnext).2
      ⟨hshift, haddr, shiftIn_eq_of_lowBitsAgree b h7 hbits⟩
  · have hnext : (cmdBit b s).st = .cmd := by rw [cmdBit_st, if_neg h7, hst]
    exact (sameButStaleBytes_iff_of_cmd hnext).2
      ⟨hshift, haddr, lowBitsAgree_nextIdx b h7 hbits⟩

theorem sameButStaleBytes_chkBit (b : Bit) (hst : s.st = .chk) (h : SameButStaleBytes s u) :
    SameButStaleBytes (chkBit b s) (chkBit b u) := by
  obtain ⟨hu, haddr, hcmd, hbits⟩ := (sameButStaleBytes_iff_of_chk hst).1 h
  have hshift : SameButBytes (chkBit b s) (chkBit b u) := congrArg (chkBit b) hu
  by_cases h7 : s.idx = 7#3
  · have hnext : (chkBit b s).st = .term := by rw [chkBit_st, if_pos h7]
    have hchk : (chkBit b s).chk = (chkBit b u).chk := shiftIn_eq_of_lowBitsAgree b h7 hbits
    refine (sameButStaleBytes_iff_of_term hnext).2 (hshift.trans ?_)
    rw [← hchk, chkBit_addr, chkBit_cmd, ← haddr, ← hcmd]
    rfl
  · have hnext : (chkBit b s).st = .chk := by rw [chkBit_st, if_neg h7, hst]
    exact (sameButStaleBytes_iff_of_chk hnext).2
      ⟨hshift, haddr, hcmd, lowBitsAgree_nextIdx b h7 hbits⟩

/-- Index 0 at the separator says that no bit of the command byte is received yet. -/
theorem sameButStaleBytes_separator1 (b : Bit) (hst : s.st = .ib1) (hidx : s.idx = 0#3)
    (h : SameButStaleBytes s u) : SameButStaleBytes (separator1 b s) (separator1 b u) := by
  obtain ⟨hu, haddr⟩ := (sameButStaleBytes_iff_of_ib1 hst).1 h
  have hnone : LowBitsAgree s.idx.toNat s.cmd u.cmd := by rw [hidx]; exact lowBitsAgree_zero _ _
  cases b <;>
    exact (sameButStaleBytes_iff_of_cmd rfl).2 ⟨congrArg (separator1 _) hu, haddr, hnone⟩

/-- As `sameButStaleBytes_separator1`, for the checksum byte. -/
theorem sameButStaleBytes_separator2 (b : Bit) (hst : s.st = .ib2) (hidx : s.idx = 0#3)
    (h : SameButStaleBytes s u) : SameButStaleBytes (separator2 b s) (separator2 b u) := by
  obtain ⟨hu, haddr, hcmd⟩ := (sameButStaleBytes_iff_of_ib2 hst).1 h
  have hnone : LowBitsAgree s.idx.toNat s.chk u.chk := by rw [hidx]; exact lowBitsAgree_zero _ _
  cases b <;>
    exact (sameButStaleBytes_iff_of_chk rfl).2 ⟨congrArg (separator2 _) hu, haddr, hcmd, hnone⟩

/-- A bit in `IB1` or `IB2` finds index 0, and in `TERM` the two states are one. -/
theorem sameButStaleBytes_bitStep (b : Bit) (hidx : s.st.inByte = false → s.idx = 0#3)
    (h : SameButStaleBytes s u) : SameButStaleBytes (bitStep b s) (bitStep b u) := by
  obtain ⟨hu, -⟩ := sameButStaleBytes_iff.1 h
  unfold bitStep
  rw [hu.st_eq]
  cases hst : s.st with
  | sync => exact sameButStaleBytes_observe b hu
  | addr => exact sameButStaleBytes_addrBit b hst h
  | ib1 => exact sameButStaleBytes_separator1 b hst (hidx (by rw [hst]; rfl)) h
  | cmd => exact sameButStaleBytes_cmdBit b hst h
  | ib2 => exact sameButStaleBytes_separator2 b hst (hidx (by rw [hst]; rfl)) h
  | chk => exact sameButStaleBytes_chkBit b hst h
  | term =>
    obtain rfl := (sameButStaleBytes_iff_of_term hst).1 h
    exact (sameButStaleBytes_iff_of_sync rfl).2 rfl
  | unused => exact sameButStaleBytes_observe b hu

theorem sameButStaleBytes_durationStep (d : Nat) (hidx : s.st.inByte = false → s.idx = 0#3)
    (h : SameButStaleBytes s u) : SameButStaleBytes (durationStep d s) (durationStep d u) := by
  obtain ⟨hu, -⟩ := sameButStaleBytes_iff.1 h
  unfold durationStep
  rw [hu.cfg_eq]
  cases classify s.cfg d with
  | zero => exact sameButStaleBytes_bitStep false hidx (sameButStaleBytes_bitFetched h)
  | one => exact sameButStaleBytes_bitStep true hidx (sameButStaleBytes_bitFetched h)
  | invalid => exact sameButStaleBytes_absorbInvalid (sameButStaleBytes_beginEdge h)

end Relation

/-! The edge. -/

/-- The edge of R30 with the pins that it samples, if there are any (10_state.md R30). -/
def edgeWith (p : Option Pins) (s : State) : State :=
  match p with
  | none => idleEdge s
  | some ⟨true, _, _⟩ => resetEdge s
  | some ⟨false, false, _⟩ => idleEdge s
  | some ⟨false, true, d⟩ => durationStep d s

theorem step_of_reset_pins {s : State} {p : Pins} {ps : List Pins} (hl : s.cfg.Legal)
    (hin : s.input = p :: ps) (hr : p.rst = true) : step s = .next (resetEdge s) :=
  step_of_settle (by rw [nextEvent, if_pos hl, hin]; simp [hr])

/-- With a legal configuration and pins that the port can carry, the step is the edge of R30. -/
theorem step_eq_edgeWith {s : State} (hl : s.cfg.Legal) (hfits : ∀ p ∈ s.input, p.Fits s.cfg) :
    step s = .next (edgeWith s.input.head? s) := by
  rcases hin : s.input with _ | ⟨⟨_ | _, _ | _, d⟩, ps⟩
  · exact step_of_no_sample hl hin
  · exact step_of_idle_pins hl hin rfl rfl
  · exact step_of_measurement hl hin (hfits _ (by rw [hin]; exact List.mem_cons_self))
  · exact step_of_reset_pins hl hin rfl
  · exact step_of_reset_pins hl hin rfl

theorem sameButStaleBytes_resetEdge {s u : State} (hu : SameButBytes s u) :
    SameButStaleBytes (resetEdge s) (resetEdge u) := by
  rw [resetEdge, resetEdge, hu.cfg_eq, hu.input_eq]
  exact (sameButStaleBytes_iff_of_sync rfl).2 rfl

theorem sameButStaleBytes_edgeWith {s u : State} (p : Option Pins)
    (hidx : s.st.inByte = false → s.idx = 0#3) (h : SameButStaleBytes s u) :
    SameButStaleBytes (edgeWith p s) (edgeWith p u) := by
  obtain ⟨hu, -⟩ := sameButStaleBytes_iff.1 h
  rcases p with _ | ⟨_ | _, _ | _, d⟩
  · exact sameButStaleBytes_beginEdge h
  · exact sameButStaleBytes_beginEdge h
  · exact sameButStaleBytes_durationStep d hidx h
  · exact sameButStaleBytes_resetEdge hu
  · exact sameButStaleBytes_resetEdge hu

/-- Settles O49: the two states see the same pins, and every kind of edge keeps the relation, which
leaves the outputs out. -/
theorem staleByteBitsReachNoOutput : Obligations.StaleByteBitsReachNoOutput := by
  intro s u hinv h
  obtain ⟨hl, hfits, ⟨-, -, hidx, -⟩, -⟩ := hinv
  obtain ⟨hu, -⟩ := sameButStaleBytes_iff.1 h
  have hsame := sameButStaleBytes_edgeWith s.input.head? hidx h
  obtain ⟨hu', -⟩ := sameButStaleBytes_iff.1 hsame
  have hstep : step u = .next (edgeWith s.input.head? u) := by
    rw [← hu.input_eq]
    exact step_eq_edgeWith (hu.cfg_eq ▸ hl) (by rwa [hu.cfg_eq, hu.input_eq])
  exact ⟨_, _, step_eq_edgeWith hl hfits, hstep, hsame, hu'.actionPort_eq.symm, hu'.outLevel_eq.symm⟩

end Sys2Proof.Machine
end

section
/-! SUPPORT. The packet decoder: the transition table has one row for each state and input, the row's
next state is the step's, and what the table says about `st` and `idx` is what every step does
(43_packet_decoder.md R162 to R166, R173 to R175). -/

namespace Sys2Proof.Machine

/-! The pulses and the step are rows of the table. -/

/-- Settles O4: the row's meaning is the step on a zero, which is a row of the table. -/
theorem pulseZeroFollowsTable : Obligations.PulseZeroFollowsTable :=
  fun d s => ⟨_, exec_eq_consumeClassified (.pulseZero d) s, tableRow_consumeBit false s⟩

/-- Settles O5: the row's meaning is the step on a one, which is a row of the table. -/
theorem pulseOneFollowsTable : Obligations.PulseOneFollowsTable :=
  fun d s => ⟨_, exec_eq_consumeClassified (.pulseOne d) s, tableRow_consumeBit true s⟩

/-- Settles O23: the edge is `Step(S, d)`, which is the row of the class of `d`. -/
theorem stepFollowsTable : Obligations.StepFollowsTable := by
  intro s d ps hl hin hd
  have hrow := tableRow_durationStep d s
  refine ⟨_, step_of_measurement hl hin hd, ?_⟩
  cases hc : classify s.cfg d with
  | zero => rwa [hc] at hrow
  | one => rwa [hc] at hrow
  | invalid => rwa [hc] at hrow

/-- Settles O24: the bit that completes the row, or the lack of one, chooses the branch. -/
theorem everyRowIsABranchOfTheStep : Obligations.EveryRowIsABranchOfTheStep := by
  intro i s
  rw [exec_eq_consumeClassified]
  cases lastBit i with
  | none => rfl
  | some b => rfl

/-! The step on a bit under the condition of each row, as the row's next state. -/

section Equations

variable {s : State}

theorem idx_ne_seven_of_toNat_lt {i : BitVec 3} (h : i.toNat < 7) : i ≠ 7#3 := by
  rintro rfl
  exact absurd h (by decide)

theorem nextIdx_seven : nextIdx 7#3 = 0#3 := if_pos rfl

theorem nextIdx_of_ne_seven {i : BitVec 3} (h : i ≠ 7#3) : nextIdx i = i + 1#3 := if_neg h

theorem addrBit_of_ne_seven (b : Bit) (h : s.idx ≠ 7#3) :
    addrBit b s = { s with addr := shiftIn s.addr b, idx := s.idx + 1#3 } := by
  rw [addrBit, if_neg h, nextIdx_of_ne_seven h]

theorem addrBit_of_passes (b : Bit) (h : s.idx = 7#3)
    (hf : passesFilter s.cfg (shiftIn s.addr b) = true) :
    addrBit b s = { s with addr := shiftIn s.addr b, idx := 0#3, st := .ib1 } := by
  rw [addrBit, if_pos h, h, nextIdx_seven]
  exact if_pos hf

theorem addrBit_of_not_passes (b : Bit) (h : s.idx = 7#3)
    (hf : ¬ passesFilter s.cfg (shiftIn s.addr b) = true) :
    addrBit b s = { s with addr := shiftIn s.addr b, idx := 0#3, st := .sync, pre := 0#4 } := by
  rw [addrBit, if_pos h, h, nextIdx_seven]
  exact if_neg hf

theorem cmdBit_of_ne_seven (b : Bit) (h : s.idx ≠ 7#3) :
    cmdBit b s = { s with cmd := shiftIn s.cmd b, idx := s.idx + 1#3 } := by
  rw [cmdBit, if_neg h, nextIdx_of_ne_seven h]

theorem cmdBit_of_seven (b : Bit) (h : s.idx = 7#3) :
    cmdBit b s = { s with cmd := shiftIn s.cmd b, idx := 0#3, st := .ib2 } := by
  rw [cmdBit, if_pos h, h, nextIdx_seven]

theorem chkBit_of_ne_seven (b : Bit) (h : s.idx ≠ 7#3) :
    chkBit b s = { s with chk := shiftIn s.chk b, idx := s.idx + 1#3 } := by
  rw [chkBit, if_neg h, nextIdx_of_ne_seven h]

theorem chkBit_of_seven (b : Bit) (h : s.idx = 7#3) :
    chkBit b s = { s with chk := shiftIn s.chk b, idx := 0#3, st := .term } := by
  rw [chkBit, if_pos h, h, nextIdx_seven]

theorem consumeBit_term_of_good (b : Bit) (hst : s.st = .term) (hchk : s.chk = s.addr ^^^ s.cmd) :
    consumeBit b s = afterAction (s.cmd.extractLsb' 1 2) (s.cmd.getLsbD 0) b s := by
  obtain ⟨-, he⟩ | ⟨hne, -⟩ :=
    terminate_cases (functionNumber s.cmd) (desiredValue s.cmd) b (bitFetched s)
  · rw [consumeBit_of_term b hst, he, toNat_not_eq_badTerminator]
    rfl
  · exact absurd hchk hne

theorem consumeBit_term_of_bad (b : Bit) (hst : s.st = .term) (hchk : s.chk ≠ s.addr ^^^ s.cmd) :
    consumeBit b s = afterMismatch b s := by
  obtain ⟨heq, -⟩ | ⟨-, he⟩ :=
    terminate_cases (functionNumber s.cmd) (desiredValue s.cmd) b (bitFetched s)
  · exact absurd heq hchk
  · rw [consumeBit_of_term b hst, he, toNat_not_eq_badTerminator]
    rfl

end Equations

/-! The table is the graph of the step. -/

/-- The bit that an input of the table is (43_packet_decoder.md R163, column `input`). -/
def ClassifiedInput.bit? : ClassifiedInput → Option Bit
  | .invalid => none
  | .bit b => some b

/-- Each row's next state is the step's, so its condition and its column `input` fix the state. -/
theorem TableRow.eq_consumeClassified {s t : State} {x : ClassifiedInput} (h : TableRow s x t) :
    t = consumeClassified x.bit? s := by
  symm
  cases h with
  | retried hcap => exact if_neg (Nat.not_le.2 hcap)
  | givenUp hcap => exact if_pos hcap
  | syncOne hst => exact consumeBit_of_inSync true ((inSync_iff s).2 hst)
  | syncStart hst hpre =>
    exact (consumeBit_of_inSync false ((inSync_iff s).2 hst)).trans (observe_false_of_inStartRange hpre)
  | syncIdle hst hpre =>
    exact (consumeBit_of_inSync false ((inSync_iff s).2 hst)).trans
      (observe_false_of_not_inStartRange hpre)
  | addrShift b hst hidx =>
    exact (consumeBit_of_addr b hst).trans (addrBit_of_ne_seven b (idx_ne_seven_of_toNat_lt hidx))
  | addrPass b hst hidx hmarker haddr =>
    exact (consumeBit_of_addr b hst).trans
      (addrBit_of_passes b (BitVec.eq_of_toNat_eq hidx) ((passesFilter_iff _ _).2 ⟨hmarker, haddr⟩))
  | addrDiscard b hst hidx hf =>
    exact (consumeBit_of_addr b hst).trans
      (addrBit_of_not_passes b (BitVec.eq_of_toNat_eq hidx) (mt (passesFilter_iff _ _).1 hf))
  | ib1Zero hst => exact consumeBit_of_ib1 false hst
  | ib1One hst => exact consumeBit_of_ib1 true hst
  | cmdShift b hst hidx =>
    exact (consumeBit_of_cmd b hst).trans (cmdBit_of_ne_seven b (idx_ne_seven_of_toNat_lt hidx))
  | cmdDone b hst hidx =>
    exact (consumeBit_of_cmd b hst).trans (cmdBit_of_seven b (BitVec.eq_of_toNat_eq hidx))
  | ib2Zero hst => exact consumeBit_of_ib2 false hst
  | ib2One hst => exact consumeBit_of_ib2 true hst
  | chkShift b hst hidx =>
    exact (consumeBit_of_chk b hst).trans (chkBit_of_ne_seven b (idx_ne_seven_of_toNat_lt hidx))
  | chkDone b hst hidx =>
    exact (consumeBit_of_chk b hst).trans (chkBit_of_seven b (BitVec.eq_of_toNat_eq hidx))
  | termGood b hst hchk => exact consumeBit_term_of_good b hst hchk
  | termBad b hst hchk => exact consumeBit_term_of_bad b hst hchk

/-- Settles O6: two rows for one input have the step's next state both. -/
theorem tableHasOneRowForEachInput : Obligations.TableHasOneRowForEachInput :=
  fun _ _ _ _ ht hu => ht.eq_consumeClassified.trans hu.eq_consumeClassified.symm

/-! Where a row leads. -/

section Successors

variable {s t : State} {b : Bit}

theorem mem_nextStates_of_sync_or_unused {st st' : DecState} (h : st = .sync ∨ st = .unused)
    (hmem : st' ∈ nextStates .sync) : st' ∈ nextStates st := by
  rcases h with rfl | rfl <;> exact hmem

theorem TableRow.st_mem_nextStates (h : TableRow s (.bit b) t) : t.st ∈ nextStates s.st := by
  cases h with
  | syncOne hst => exact mem_nextStates_of_sync_or_unused hst (by simp [nextStates])
  | syncStart hst => exact mem_nextStates_of_sync_or_unused hst (by simp [nextStates])
  | syncIdle hst => exact mem_nextStates_of_sync_or_unused hst (by simp [nextStates])
  | _ => simp [nextStates, withBit, afterAction, afterMismatch, *]

/-- A byte state counts its bits, and the eighth leaves it (42_byte_assembler.md R141). -/
theorem TableRow.st_idx_of_inByte (h : TableRow s (.bit b) t) (hbyte : s.st.inByte = true) :
    (s.idx ≠ 7#3 ∧ t.st = s.st ∧ t.idx = s.idx + 1#3) ∨
      (s.idx = 7#3 ∧ t.st ≠ s.st ∧ t.idx = 0#3) := by
  have absurd_of_not_inByte (hb : s.st.inByte = false) : False := by simp [hb] at hbyte
  cases h with
  | addrShift b _ hidx => exact .inl ⟨idx_ne_seven_of_toNat_lt hidx, rfl, rfl⟩
  | cmdShift b _ hidx => exact .inl ⟨idx_ne_seven_of_toNat_lt hidx, rfl, rfl⟩
  | chkShift b _ hidx => exact .inl ⟨idx_ne_seven_of_toNat_lt hidx, rfl, rfl⟩
  | addrPass b hst hidx => exact .inr ⟨BitVec.eq_of_toNat_eq hidx, hst ▸ nofun, rfl⟩
  | addrDiscard b hst hidx => exact .inr ⟨BitVec.eq_of_toNat_eq hidx, hst ▸ nofun, rfl⟩
  | cmdDone b hst hidx => exact .inr ⟨BitVec.eq_of_toNat_eq hidx, hst ▸ nofun, rfl⟩
  | chkDone b hst hidx => exact .inr ⟨BitVec.eq_of_toNat_eq hidx, hst ▸ nofun, rfl⟩
  | syncOne hst => exact (absurd_of_not_inByte (inByte_of_sync_or_unused hst)).elim
  | syncStart hst => exact (absurd_of_not_inByte (inByte_of_sync_or_unused hst)).elim
  | syncIdle hst => exact (absurd_of_not_inByte (inByte_of_sync_or_unused hst)).elim
  | _ => exact (absurd_of_not_inByte (by simp [DecState.inByte, *])).elim

theorem inputOfClass_of_spells {cfg : Config} {d : Nat} (h : Spells cfg d b) :
    inputOfClass (classify cfg d) = .bit b := by
  obtain ⟨-, hclass⟩ := h
  rw [hclass]
  cases b <;> rfl

/-- The only successor of `TERM` is `SYNC`, and entering it clears `pre`. -/
theorem TableRow.sync_of_term (h : TableRow s (.bit b) t) (hst : s.st = .term) :
    t.st = .sync ∧ t.pre = 0#4 := by
  have hsync : t.st = .sync := by
    have hmem := h.st_mem_nextStates
    rw [hst] at hmem
    exact List.mem_singleton.1 hmem
  obtain ⟨hne, -⟩ | hentered := h.pre_kept_or_sync_entered (by rw [hst]; nofun) (by rw [hst]; nofun)
  · exact absurd hsync hne
  · exact hentered

theorem TableRow.cntChk_of_term (h : TableRow s (.bit b) t) (hst : s.st = .term) :
    t.cntChk =
      counted s s.cntChk ((if s.chk = s.addr ^^^ s.cmd then 0 else 1) + badTerminator b) := by
  rw [h.cntChk_eq, if_pos ⟨hst, nofun⟩, badTerminator_eq]

end Successors

/-- Settles O41: the edge is a row of the table for the bit, and its row says where it leads. -/
theorem decoderStateMovesByTheTable : Obligations.DecoderStateMovesByTheTable := by
  intro s t d b ps hin hbit hstep
  have hrow := tableRow_of_measurement hin hstep
  rw [inputOfClass_of_spells hbit] at hrow
  refine ⟨hrow.st_mem_nextStates, fun hbyte => ?_⟩
  obtain ⟨hidx, hst, hnext⟩ | ⟨hidx, hst, hnext⟩ := hrow.st_idx_of_inByte hbyte
  · exact ⟨iff_of_true hst hidx, by rw [hnext, if_neg hidx]⟩
  · exact ⟨iff_of_false hst (not_not_intro hidx), by rw [hnext, if_pos hidx]⟩

/-! The terminator step (43_packet_decoder.md R173 to R175). -/

/-- Settles O18: each pulse is a row of `TERM`, and every row of `TERM` returns to `SYNC`. -/
theorem terminatorStepReturnsToSync : Obligations.TerminatorStepReturnsToSync := by
  intro d s hst
  obtain ⟨t, ht, hzero⟩ := pulseZeroFollowsTable d s
  obtain ⟨u, hu, hone⟩ := pulseOneFollowsTable d s
  exact ⟨⟨t, ht, hzero.sync_of_term hst⟩, ⟨u, hu, hone.sync_of_term hst⟩⟩

/-- Settles O19: each pulse is a row of `TERM`, whose one update counts checksum and terminator. -/
theorem wrongTerminatorCountsOnceMore : Obligations.WrongTerminatorCountsOnceMore := by
  intro d s hst
  obtain ⟨t, ht, hzero⟩ := pulseZeroFollowsTable d s
  obtain ⟨u, hu, hone⟩ := pulseOneFollowsTable d s
  refine ⟨t, u, ht, hu, ?_, ?_⟩
  · rw [hzero.cntChk_of_term hst, counted, ← Nat.add_assoc]
    rfl
  · rw [hone.cntChk_of_term hst]
    rfl

/-! The unused code (43_packet_decoder.md R164). -/

/-- The synchronizer writes `st` on every bit, so the code it finds there leaves no trace. -/
theorem observe_st (b : Bit) (st : DecState) (s : State) : observe b { s with st := st } = observe b s :=
  rfl

theorem consumeBit_of_unused (b : Bit) {s : State} (h : s.st = .unused) :
    consumeBit b s = consumeBit b { s with st := .sync } := by
  rw [consumeBit_of_inSync b ((inSync_iff s).2 (.inr h)),
    consumeBit_of_inSync b ((inSync_iff { s with st := .sync }).2 (.inl rfl))]
  exact (observe_st b .sync (bitFetched s)).symm

/-- Settles O50: both edges are the step on the bit, and the synchronizer takes it in both. -/
theorem unusedCodeActsAsSync : Obligations.UnusedCodeActsAsSync := by
  intro s d b ps hl hst hin hbit
  rw [step_of_spells hl hin hbit, consumeBit_of_unused b hst]
  exact (step_of_spells (s := { s with st := .sync }) hl hin hbit).symm

end Sys2Proof.Machine
end

section
/-! SUPPORT. The checksum validator at the terminator step: every row that the terminator completes has
one outcome for a matching and one for a mismatching checksum (44_checksum_validator.md R200 to R206). -/

namespace Sys2Proof.Machine

/-! The rows that the terminator completes. -/

/-- A row completed by a bit is the step on that bit. -/
theorem exec_of_lastBit {i : Instr} {b : Bit} (hi : lastBit i = some b) (s : State) :
    exec i s = .next (consumeBit b s) := by
  rw [exec_eq_consumeClassified, hi, consumeClassified_some]

section Terminator

variable {s : State} {i : Instr} {t : Bit}

theorem exec_of_checksum_match (hi : lastBit i = some t) (hst : s.st = .term)
    (hchk : s.chk = s.addr ^^^ s.cmd) :
    exec i s = .next (afterAction (s.cmd.extractLsb' 1 2) (s.cmd.getLsbD 0) t s) := by
  rw [exec_of_lastBit hi, consumeBit_term_of_good t hst hchk]

theorem exec_of_checksum_mismatch (hi : lastBit i = some t) (hst : s.st = .term)
    (hchk : s.chk ≠ s.addr ^^^ s.cmd) : exec i s = .next (afterMismatch t s) := by
  rw [exec_of_lastBit hi, consumeBit_term_of_bad t hst hchk]

end Terminator

/-- Settles O15: the terminator completes all eight rows, and a mismatch has one outcome for them. -/
theorem mismatchSuppressesEverySetRow : Obligations.MismatchSuppressesEverySetRow := by
  intro a s1 x s2 k t s hst _ hk hbad
  rw [← hk] at hbad
  have suppressed (i : Instr) (hi : lastBit i = some t) : exec i s = .next (afterMismatch t s) :=
    exec_of_checksum_mismatch hi hst hbad
  exact ⟨fun _ => suppressed _ rfl, fun _ => suppressed _ rfl, fun _ => suppressed _ rfl,
    fun _ => suppressed _ rfl, fun _ => suppressed _ rfl, fun _ => suppressed _ rfl,
    fun _ => suppressed _ rfl, fun _ => suppressed _ rfl⟩

/-- Settles O16: the registers hold the frame, so its checksum is the one that the step validates. -/
theorem checksumRowDecidesTheStep : Obligations.ChecksumRowDecidesTheStep := by
  rintro _ s1 _ s2 _ t s hst rfl rfl rfl
  exact ⟨exec_of_checksum_mismatch rfl hst, exec_of_checksum_match rfl hst⟩

/-! What a good frame counts. -/

theorem counted_zero_of_le {s : State} {c : Nat} (h : c ≤ s.cfg.countMax) : counted s c 0 = c :=
  Nat.min_eq_left h

/-- Settles O17: the action with a terminator `1` counts 0 in `cnt_chk`, which saturation leaves as it
is because the counter is in its range; no other counter is written. -/
theorem goodChecksumCountsNothing : Obligations.GoodChecksumCountsNothing := by
  rintro d s ⟨hrange, -, -, -⟩ hst hchk
  exact ⟨_, exec_of_checksum_match (i := .pulseOne d) rfl hst hchk, counted_zero_of_le hrange,
    rfl, rfl, rfl⟩

/-! The flag. -/

/-- Settles O20: the flag says whether the checksum differs from `addr XOR cmd`, and flipping bits of a
byte gives another byte. -/
theorem checksumFlagIsNotAParity : Obligations.ChecksumFlagIsNotAParity := by
  intro a c m
  refine ⟨(checksumError_eq_false_iff a c _).2 rfl, fun hm => ?_⟩
  refine (checksumError_iff a c _).2 fun heq => hm ?_
  have hzero : a ^^^ c ^^^ m = a ^^^ c ^^^ 0#8 := heq.trans BitVec.xor_zero.symm
  exact (BitVec.xor_right_inj (a ^^^ c)).1 hzero

end Sys2Proof.Machine
end

section
/-! SUPPORT. The output mapper: the filter on the completed address byte, the eight entries of the
command-to-action table on a good checksum, and what an action does to the outputs
(45_output_mapper.md R220 to R234). -/

namespace Sys2Proof.Machine

/-! The address filter. -/

theorem applyFilter_of_not_passes {s : State} (h : ¬ passesFilter s.cfg s.addr = true) :
    applyFilter s = discardPacket s := if_neg h

/-- Settles O46: the eight bits complete the byte and run the filter on it, whose two verdicts are the two
clauses. -/
theorem addressByteIsFilteredWhole : Obligations.AddressByteIsFilteredWhole := by
  intro s ds ps a hl hst hidx hin hbits
  have hinput : s.input.drop 8 = ps := input_drop_of_spellsBits hin hbits
  have hrun : runEdges 8 s = .next (applyFilter (addrHeld s a 0#3 ps)) := by
    rw [← hinput, ← consumeBits_wireBits_of_addr a hst hidx]
    exact runEdges_of_spellsBits hl hin hbits
  rw [hrun, ← passesFilter_iff]
  exact ⟨fun hpass => congrArg _ (applyFilter_of_passes (s := addrHeld s a 0#3 ps) hpass),
    fun hfail => congrArg _ (applyFilter_of_not_passes (s := addrHeld s a 0#3 ps) hfail)⟩

/-! The discards at the eighth bit. -/

/-- Seven bits in the register and the last one shifted in are the byte (42_byte_assembler.md R140). -/
theorem shiftIn_lastBit {r a : Byte} (h : r.extractLsb' 0 7 = a.extractLsb' 1 7) :
    shiftIn r (a.getLsbD 0) = a := by
  have hlast : bitWord (a.getLsbD 0) = a.extractLsb' 0 1 := by
    refine BitVec.eq_of_getLsbD_eq fun i hi => ?_
    obtain rfl : i = 0 := Nat.lt_one_iff.1 hi
    simp
  rw [shiftIn, h, hlast]
  exact (BitVec.extractLsb'_append_extractLsb'_eq_extractLsb' rfl).trans BitVec.extractLsb'_eq_self

/-- A row completed by the last bit of an address byte that the filter rejects discards that byte. -/
theorem exec_of_rejected_byte {i : Instr} {s : State} {a : Byte}
    (hi : lastBit i = some (a.getLsbD 0)) (hst : s.st = .addr) (hidx : s.idx = 7#3)
    (hbits : s.addr.extractLsb' 0 7 = a.extractLsb' 1 7) (hf : passesFilter s.cfg a = false) :
    exec i s = .next (discardByte a s) := by
  have hawaits : awaitsLastBitOf s a = true :=
    (awaitsLastBitOf_iff s a).2 ⟨hst, hidx, shiftIn_lastBit hbits⟩
  rw [exec_of_lastBit hi, discardByte_eq_consumeBit hawaits hf]

/-- Settles O8: the marker of the byte starts with 0. -/
theorem notAccessoryZeroByteIsDiscarded : Obligations.NotAccessoryZeroByteIsDiscarded :=
  fun x s hst hidx hbits =>
    exec_of_rejected_byte (a := notAccessoryByte0 x) (congrArg some (notAccessoryByte0_lastBit x).symm)
      hst hidx hbits (passesFilter_of_not_markerOk s.cfg (markerOk_notAccessoryByte0 x))

/-- Settles O9: the marker of the byte is 11. -/
theorem notAccessoryElevenByteIsDiscarded : Obligations.NotAccessoryElevenByteIsDiscarded :=
  fun x s hst hidx hbits =>
    exec_of_rejected_byte (a := notAccessoryByte11 x) (congrArg some (notAccessoryByte11_lastBit x).symm)
      hst hidx hbits (passesFilter_of_not_markerOk s.cfg (markerOk_notAccessoryByte11 x))

/-- Settles O10: the marker of the byte is 10, but its address is not the configured one. -/
theorem otherAddressIsDiscarded : Obligations.OtherAddressIsDiscarded :=
  fun a _ hst hidx hne hbits =>
    exec_of_rejected_byte (a := accessoryByte a) (congrArg some (accessoryByte_lastBit a).symm)
      hst hidx hbits (passesFilter_accessoryByte_of_ne hne)

/-! The eight entries of the command-to-action table. -/

theorem lastBit_setRow (row : BitVec 3) (a : BitVec 6) (s1 : Bit) (x : BitVec 5) (s2 : Bit) (k : Byte)
    (t : Bit) : lastBit (setRow row a s1 x s2 k t) = some t := by
  rcases tableBits_cases row with rfl | rfl | rfl | rfl | rfl | rfl | rfl | rfl <;> rfl

/-- A SET row on a good checksum dispatches the action that its three table bits name
(45_output_mapper.md R222, R223). -/
theorem exec_setRow_of_checksum_match {s : State} {row : BitVec 3} {x : BitVec 5} (a : BitVec 6)
    (s1 s2 : Bit) (k : Byte) (t : Bit) (hst : s.st = .term) (hcmd : s.cmd = commandByte x row)
    (hchk : s.chk = s.addr ^^^ s.cmd) :
    exec (setRow row a s1 x s2 k t) s =
      .next (afterAction (row.extractLsb' 1 2) (row.getLsbD 0) t s) := by
  have hfn : s.cmd.extractLsb' 1 2 = row.extractLsb' 1 2 := by
    rw [hcmd]
    exact functionNumber_commandByte x row
  have hvalue : s.cmd.getLsbD 0 = row.getLsbD 0 := by
    rw [hcmd]
    exact desiredValue_commandByte x row
  rw [exec_of_checksum_match (lastBit_setRow row a s1 x s2 k t) hst hchk, hfn, hvalue]

/-- Settles O11: the two rows of function 0. -/
theorem setOutput0DispatchesItsAction : Obligations.SetOutput0DispatchesItsAction := by
  rintro a s1 x s2 _ t s hst - rfl
  exact ⟨exec_setRow_of_checksum_match (row := 0#3) a s1 s2 s.chk t hst,
    exec_setRow_of_checksum_match (row := 1#3) a s1 s2 s.chk t hst⟩

/-- Settles O12: the two rows of function 1. -/
theorem setOutput1DispatchesItsAction : Obligations.SetOutput1DispatchesItsAction := by
  rintro a s1 x s2 _ t s hst - rfl
  exact ⟨exec_setRow_of_checksum_match (row := 2#3) a s1 s2 s.chk t hst,
    exec_setRow_of_checksum_match (row := 3#3) a s1 s2 s.chk t hst⟩

/-- Settles O13: the two rows of function 2. -/
theorem setOutput2DispatchesItsAction : Obligations.SetOutput2DispatchesItsAction := by
  rintro a s1 x s2 _ t s hst - rfl
  exact ⟨exec_setRow_of_checksum_match (row := 4#3) a s1 s2 s.chk t hst,
    exec_setRow_of_checksum_match (row := 5#3) a s1 s2 s.chk t hst⟩

/-- Settles O14: the two rows of function 3. -/
theorem setOutput3DispatchesItsAction : Obligations.SetOutput3DispatchesItsAction := by
  rintro a s1 x s2 _ t s hst - rfl
  exact ⟨exec_setRow_of_checksum_match (row := 6#3) a s1 s2 s.chk t hst,
    exec_setRow_of_checksum_match (row := 7#3) a s1 s2 s.chk t hst⟩

/-! What an action does to the outputs. -/

/-- A line set to a level that it has keeps it, and setting it moves no other line (10_state.md R35). -/
theorem setLevel_setLevel (o : BitVec 4) (ln : BitVec 2) (v : Bit) :
    setLevel (setLevel o ln v) ln v = setLevel o ln v := by
  refine BitVec.eq_of_getLsbD_eq fun n hn => ?_
  rw [setLevel_getLsbD _ ln v n hn, setLevel_getLsbD o ln v n hn]
  split <;> rfl

/-- Settles O51: an action sets its line and its registers to values that do not depend on the outputs,
so they have them already the second time. -/
theorem repeatedActionChangesNothingMore : Obligations.RepeatedActionChangesNothingMore := by
  intro s fn v
  have hlevel : (dispatchAction fn v (dispatchAction fn v s)).outLevel =
      (dispatchAction fn v s).outLevel := setLevel_setLevel _ _ v
  exact congrArg (fun o => { dispatchAction fn v s with outLevel := o }) hlevel

/-- The step from `s` to `t` emits no action: the strobe is low, the outputs and the action registers are
held (10_state.md R33 to R35). -/
def NoAction (s t : State) : Prop :=
  t.actValid = false ∧ t.outLevel = s.outLevel ∧ t.actIndex = s.actIndex ∧ t.actLine = s.actLine ∧
    t.actValue = s.actValue

/-- The step from `s` to `t` is the terminator step on a good checksum (45_output_mapper.md R223). -/
def ActsOnCommand (s t : State) : Prop :=
  s.st = .term ∧ s.chk = s.addr ^^^ s.cmd ∧
    ∃ b, t = afterAction (s.cmd.extractLsb' 1 2) (s.cmd.getLsbD 0) b s

/-- One row of the table emits an action, and the others write neither the outputs nor the registers of
the action port. -/
theorem TableRow.actsOnCommand_or_noAction {s t : State} {x : ClassifiedInput} (h : TableRow s x t) :
    ActsOnCommand s t ∨ NoAction s t := by
  cases h with
  | termGood b hst hchk => exact .inl ⟨hst, hchk, b, rfl⟩
  | _ => exact .inr ⟨rfl, rfl, rfl, rfl, rfl⟩

theorem step_actsOnCommand_or_noAction {s t : State}
    (hr : ∀ p ps, s.input = p :: ps → p.rst = false) (h : step s = .next t) :
    ActsOnCommand s t ∨ NoAction s t := by
  rcases step_next_tableRow_of_not_reset hr h with rfl | ⟨x, hrow⟩
  · exact .inr ⟨rfl, rfl, rfl, rfl, rfl⟩
  · exact hrow.actsOnCommand_or_noAction

/-- Settles O37: the strobe tells the step that acts, which sets one line, from the steps that do not. -/
theorem outputsChangeOnlyByAction : Obligations.OutputsChangeOnlyByAction := by
  intro s t hr h
  rcases step_actsOnCommand_or_noAction hr h with ⟨hst, hchk, b, rfl⟩ | ⟨hquiet, hheld⟩
  · exact ⟨fun _ => ⟨hst, hchk, rfl, rfl, rfl, setLevel_getLsbD _ _ _⟩, nofun⟩
  · exact ⟨fun hstrobe => absurd (hquiet.symm.trans hstrobe) Bool.false_ne_true, fun _ => hheld⟩

end Sys2Proof.Machine
end

section
/-! SUPPORT. Which edges have a next state: only a measurement that is wider than the port stops the step
(60_exceptions.md R260; 10_state.md R31; assumption log 5). -/

namespace Sys2Proof.Machine

/-- A measurement that an edge has consumed is one that the port can carry. -/
theorem dur_lt_of_step_next {s t : State} {p : Pins} {ps : List Pins} (h : step s = .next t)
    (hin : s.input = p :: ps) (hr : p.rst = false) (hv : p.durValid = true) :
    p.dur < 2 ^ s.cfg.durW := by
  obtain ⟨-, ⟨hnil, -⟩ | ⟨q, qs, hin', hedge⟩⟩ := step_next_cases h
  · cases hnil.symm.trans hin
  · obtain ⟨rfl, -⟩ := List.cons_eq_cons.1 (hin'.symm.trans hin)
    rcases hedge with ⟨hreset, -⟩ | ⟨-, hidle, -⟩ | ⟨-, -, hd, -⟩
    · exact absurd (hr.symm.trans hreset) Bool.false_ne_true
    · exact absurd (hidle.symm.trans hv) Bool.false_ne_true
    · exact hd

/-- The edge answers when the coming sample, if it is a measurement, is one that the port can carry: reset
and idle edges have a next state, and so has every row that a measurement spells. -/
theorem step_next_of_dur_lt {s : State} (hl : s.cfg.Legal)
    (hd : ∀ p ps, s.input = p :: ps → p.rst = false → p.durValid = true → p.dur < 2 ^ s.cfg.durW) :
    ∃ t, step s = .next t := by
  rcases nextEvent_cases s hl with ⟨-, he⟩ | ⟨p, ps, hin, ⟨-, he⟩ | ⟨-, -, he⟩ |
    ⟨-, -, -, i, -, he⟩ | ⟨hr, hv, hwide, -⟩⟩
  · exact ⟨_, step_of_settle he⟩
  · exact ⟨_, step_of_settle he⟩
  · exact ⟨_, step_of_settle he⟩
  · exact ⟨_, (step_of_run he).trans (exec_eq_consumeClassified i s)⟩
  · exact absurd (hd p ps hin hr hv) hwide

/-- Settles O29: an edge consumes only what the port can carry, and nothing else is refused. -/
theorem noInputStopsTheCore : Obligations.NoInputStopsTheCore := by
  refine fun s hl => ⟨?_, step_next_of_dur_lt hl⟩
  rintro ⟨t, h⟩ p ps hin hr hv
  exact dur_lt_of_step_next h hin hr hv

end Sys2Proof.Machine
end

section
/-! SUPPORT. Reset and hazards: a reset edge drops its duration (70_reset_and_hazards.md R290, R291), and
an action is a whole preamble and frame away from the next one (R308; 90_conflicts.md C14). -/

namespace Sys2Proof.Machine

/-! The reset edge. -/

/-- Settles O26: the edge is the reset edge, and neither `durValid` nor `dur` is looked at. -/
theorem resetEdgeBeatsDuration : Obligations.ResetEdgeBeatsDuration := by
  intro s p ps hl hin hr
  rw [step_of_reset_pins hl hin hr, resetEdge, hin, List.tail_cons]
  rfl

/-! The way to the next action. -/

/-- How many bits of a preamble, a start bit and a frame body the registers stand for: `pre` ones in
`SYNC`, and in a packet the 10 ones and the start bit that it needed at least, with the body bits taken
since. Outside the byte states `idx` is added too, which is 0 in every packet that `SYNC` opened, so that
no invariant is needed (70_reset_and_hazards.md R308). -/
def bitsTaken (s : State) : Nat :=
  match s.st with
  | .sync => s.pre.toNat
  | .unused => s.pre.toNat
  | .addr => 11 + s.idx.toNat
  | .ib1 => 19 + s.idx.toNat
  | .cmd => 20 + s.idx.toNat
  | .ib2 => 28 + s.idx.toNat
  | .chk => 29 + s.idx.toNat
  | .term => 37

section BitsTaken

variable {s t : State}

theorem bitsTaken_of_sync_or_unused (h : s.st = .sync ∨ s.st = .unused) :
    bitsTaken s = s.pre.toNat := by rcases h with h | h <;> simp [bitsTaken, h]

theorem bitsTaken_of_addr (h : s.st = .addr) : bitsTaken s = 11 + s.idx.toNat := by simp [bitsTaken, h]

theorem bitsTaken_of_ib1 (h : s.st = .ib1) : bitsTaken s = 19 + s.idx.toNat := by simp [bitsTaken, h]

theorem bitsTaken_of_cmd (h : s.st = .cmd) : bitsTaken s = 20 + s.idx.toNat := by simp [bitsTaken, h]

theorem bitsTaken_of_ib2 (h : s.st = .ib2) : bitsTaken s = 28 + s.idx.toNat := by simp [bitsTaken, h]

theorem bitsTaken_of_chk (h : s.st = .chk) : bitsTaken s = 29 + s.idx.toNat := by simp [bitsTaken, h]

theorem bitsTaken_of_term (h : s.st = .term) : bitsTaken s = 37 := by simp [bitsTaken, h]

/-- In `SYNC` with `pre` cleared, after a reset, a give-up, a discard or an action, the way begins
again. -/
theorem bitsTaken_of_sync_cleared (hst : s.st = .sync) (hpre : s.pre = 0#4) : bitsTaken s = 0 := by
  rw [bitsTaken_of_sync_or_unused (.inl hst), hpre]
  rfl

/-- The same decoder state with the next `idx` is at most one bit further. -/
theorem bitsTaken_le_of_idx_add_one (hst : t.st = s.st) (hpre : t.pre = s.pre)
    (hidx : t.idx = s.idx + 1#3) : bitsTaken t ≤ bitsTaken s + 1 := by
  have hle : t.idx.toNat ≤ s.idx.toNat + 1 := by rw [hidx]; bv_omega
  unfold bitsTaken
  rw [hst, hpre]
  cases s.st <;> dsimp only <;> omega

/-- A row of the table takes the registers at most one bit on. -/
theorem TableRow.bitsTaken_le {x : ClassifiedInput} (h : TableRow s x t) :
    bitsTaken t ≤ bitsTaken s + 1 := by
  have le_of_cleared (hst : t.st = .sync) (hpre : t.pre = 0#4) : bitsTaken t ≤ bitsTaken s + 1 :=
    (bitsTaken_of_sync_cleared hst hpre).trans_le (Nat.zero_le _)
  cases h with
  | retried => exact Nat.le_succ _
  | givenUp => exact le_of_cleared rfl rfl
  | syncOne hst =>
    rw [bitsTaken_of_sync_or_unused hst, bitsTaken_of_sync_or_unused (.inl rfl), BitVec.toNat_ofNat]
    exact (Nat.mod_le _ _).trans (Nat.min_le_left _ _)
  | syncStart hst hpre =>
    obtain ⟨hmin, -⟩ := hpre
    rw [bitsTaken_of_sync_or_unused hst, bitsTaken_of_addr rfl]
    exact Nat.succ_le_succ hmin
  | syncIdle => exact le_of_cleared rfl rfl
  | addrShift => exact bitsTaken_le_of_idx_add_one rfl rfl rfl
  | addrPass b hst hidx => rw [bitsTaken_of_addr hst, hidx, bitsTaken_of_ib1 rfl]; rfl
  | addrDiscard => exact le_of_cleared rfl rfl
  | ib1Zero hst => rw [bitsTaken_of_ib1 hst, bitsTaken_of_cmd rfl]; exact (Nat.add_right_comm 19 1 _).le
  | ib1One hst => rw [bitsTaken_of_ib1 hst, bitsTaken_of_cmd rfl]; exact (Nat.add_right_comm 19 1 _).le
  | cmdShift => exact bitsTaken_le_of_idx_add_one rfl rfl rfl
  | cmdDone b hst hidx => rw [bitsTaken_of_cmd hst, hidx, bitsTaken_of_ib2 rfl]; rfl
  | ib2Zero hst => rw [bitsTaken_of_ib2 hst, bitsTaken_of_chk rfl]; exact (Nat.add_right_comm 28 1 _).le
  | ib2One hst => rw [bitsTaken_of_ib2 hst, bitsTaken_of_chk rfl]; exact (Nat.add_right_comm 28 1 _).le
  | chkShift => exact bitsTaken_le_of_idx_add_one rfl rfl rfl
  | chkDone b hst hidx => rw [bitsTaken_of_chk hst, hidx, bitsTaken_of_term rfl]
  | termGood => exact le_of_cleared rfl rfl
  | termBad => exact le_of_cleared rfl rfl

/-- An edge takes at most one bit on: an idle edge none, and a reset loses them all. -/
theorem step_bitsTaken_le (h : step s = .next t) : bitsTaken t ≤ bitsTaken s + 1 := by
  rcases step_next_tableRow h with rfl | ⟨p, ps, -, -, rfl⟩ | ⟨x, hrow⟩
  · exact Nat.le_succ _
  · exact (bitsTaken_of_sync_cleared rfl rfl).trans_le (Nat.zero_le _)
  · exact hrow.bitsTaken_le

/-- With reset edges too, only the terminator step on a good checksum raises the strobe. -/
theorem step_actsOnCommand_of_actValid (h : step s = .next t) (ha : t.actValid = true) :
    ActsOnCommand s t := by
  rcases step_next_tableRow h with rfl | ⟨p, ps, -, -, rfl⟩ | ⟨x, hrow⟩
  · cases ha
  · cases ha
  · rcases hrow.actsOnCommand_or_noAction with hact | ⟨hquiet, -⟩
    · exact hact
    · cases hquiet.symm.trans ha

/-- An action sends the decoder to the start of the way. -/
theorem bitsTaken_eq_zero_of_actsOnCommand (h : ActsOnCommand s t) : bitsTaken t = 0 := by
  obtain ⟨-, -, b, rfl⟩ := h
  exact bitsTaken_of_sync_cleared rfl rfl

/-- An action needs all 37 bits before its terminator. -/
theorem step_quiet_of_bitsTaken_lt (h : step s = .next t) (hlt : bitsTaken s < 37) :
    t.actValid = false := by
  by_contra ha
  obtain ⟨hst, -⟩ := step_actsOnCommand_of_actValid h (Bool.eq_true_of_not_eq_false ha)
  exact hlt.ne (bitsTaken_of_term hst)

/-- A run that answers after `n + 1` edges has a first edge that answers. -/
theorem runEdges_succ_next {n : Nat} {u : State} (h : runEdges (n + 1) s = .next u) :
    ∃ t, step s = .next t ∧ runEdges n t = .next u := by
  cases hs : step s with
  | next t => exact ⟨t, rfl, runEdges_succ n hs ▸ h⟩
  | fault r => exact r.rec
  | refused r =>
    rw [runEdges_succ_refused n hs] at h
    cases h

/-- A run of at least one edge that is too short to take all 37 bits and the terminator ends without an
action. -/
theorem runEdges_quiet {n : Nat} {u : State} (h : runEdges (n + 1) s = .next u)
    (hshort : bitsTaken s + n < 37) : u.actValid = false := by
  induction n generalizing s with
  | zero =>
    obtain ⟨t, hstep, hrun⟩ := runEdges_succ_next h
    cases hrun
    exact step_quiet_of_bitsTaken_lt hstep hshort
  | succ n ih =>
    obtain ⟨t, hstep, hrun⟩ := runEdges_succ_next h
    have hle := step_bitsTaken_le hstep
    exact ih hrun (by omega)

end BitsTaken

/-- Settles O48: the action leaves no bit taken, each edge takes at most one, and the next action needs
37 of them before its own edge. -/
theorem actionsAreAtLeast38EdgesApart : Obligations.ActionsAreAtLeast38EdgesApart := by
  intro s t u n hstep ha hn hn37 hrun
  have hstart := bitsTaken_eq_zero_of_actsOnCommand (step_actsOnCommand_of_actValid hstep ha)
  obtain ⟨m, rfl⟩ := Nat.exists_eq_add_of_le' hn
  exact runEdges_quiet hrun (by omega)

end Sys2Proof.Machine
end
